-- ==== Sys2Proof/Word.lean ====
section
/-! DEFINITION. The word types: 00_scope rule R9 (data width, command width) and rule R50 (device addresses). -/

namespace Sys2Proof

/-- A byte on the bus, a time field, an operand (R9, "8 bits for every byte on the bus and every TOD field"). -/
abbrev Byte := BitVec 8

/-- A command word on the host's channel (R80). -/
abbrev Word := BitVec 32

/-- A 7-bit bus device address (R50). -/
abbrev DeviceAddr := BitVec 7

end Sys2Proof
end

