-- ==== Sys2Proof/Config.lean ====
section
/-! DEFINITION. The parameters of CORE (00_scope rules R9 and R10) and the free values.

Nothing in Lean can see what a free value is: each is an opaque constant, applied to the counter `env.draws` of State
(log entries 3, 4, 6, 7, 8, 16), so a theorem about the model holds whatever the environment answers. -/

namespace Sys2Proof

/-- HOUR_MODE (R9, R129): `h24` is the default and the only value given meaning; `h12` is named and refused. -/
inductive HourMode where
  | h24
  | h12
  deriving DecidableEq, Repr

namespace Config

/-- DEV_ADDR, the RTC's fixed 7-bit device address (R9, R64). -/
def devAddr : DeviceAddr := 0x68#7

/-- PTR_START, the register pointer both sequences send (R9). -/
def ptrStart : Byte := 0x00#8

/-- READ_COUNT, the bytes GETTIME requests (R9). -/
def readCount : Nat := 7

/-- WRITE_COUNT, the data bytes SETTIME sends (R9). -/
def writeCount : Nat := 3

/-- CMD_WIDTH, the bits of a command word (R9). -/
def cmdWidth : Nat := 32

/-- HOUR_MODE's documented default (R9). -/
def hourModeDefault : HourMode := .h24

/-- MAX_S, the largest seconds value of a time of day (R10). -/
def maxS : Nat := 59

/-- MAX_M, the largest minutes value of a time of day (R10). -/
def maxM : Nat := 59

/-- MAX_H, the largest hours value of a time of day (R10). -/
def maxH : Nat := 23

/-- A free bit: what BusEnd answers (R57, R61). -/
opaque freeAck : Nat → Bool

/-- A free count within the collaborator's contract, 0 to 7: what BusRequest answers (R58, R61). -/
opaque freeCount : Nat → Fin 8

/-- A free byte: what BusReceive answers (R59, R61), and a byte the spec leaves unspecified (R38, R146, R191). -/
opaque freeByte : Nat → Byte

/-- A free 3-bit value: RXN and RXI after a reset step (R38). -/
opaque freeBits3 : Nat → BitVec 3

/-- A free bit of the bus collaborator's transaction state after a sequence is abandoned (R191). -/
opaque freeFlag : Nat → Bool

/-- The bytes that wait in the bus collaborator after a sequence is abandoned (R191). -/
opaque freeQueue : Nat → List Byte

/-- Where the RTC's pointer goes from a register past 6: not in the source (R52). -/
opaque pointerPast : Byte → Byte

/-- The seconds byte after a tick that rule R71 states no result for. -/
opaque freeTick : Byte → Nat → Byte

end Config
end Sys2Proof
end

