-- ==== Sys2Proof/Syntax.lean ====
section
/-! DEFINITION. The four commands (30_encoding rule R80) with their operands (rule R83), and the lines of the assembler
(rule R89). -/

namespace Sys2Proof

/-- A command: one constructor per row of the opcode map (R84). Every operand is an 8-bit unsigned field taken as it
stands (R83), so every value of this type is well formed. -/
inductive Instr where
  /-- ENC v, the document's `decimalToBcd` (R103). -/
  | enc (v : Byte)
  /-- DEC b, the document's `bcdToDecimal` (R107). -/
  | dec (b : Byte)
  /-- GETTIME, the document's `getTime` (R120). -/
  | gettime
  /-- SETTIME h, m, s, the document's `setTime` (R140). -/
  | settime (h m s : Byte)
  deriving DecidableEq, Repr

/-- A line of a program in the assembler's syntax (R89). Its operands are numbers, which the assembler checks. -/
inductive AsmLine where
  | enc (v : Nat)
  | dec (b : Nat)
  | gettime
  | settime (h m s : Nat)
  /-- `.word w`, the raw word, for writing illegal commands. -/
  | word (w : Nat)
  deriving DecidableEq, Repr

end Sys2Proof
end

