-- ==== Sys2Proof/WellFormed.lean ====
section
/-! DEFINITION. Which lines the assembler takes (30_encoding rule R89). An `Instr` needs no check: its operands are bytes
(rule R83). -/

namespace Sys2Proof

/-- An operand the assembler takes: "An assembler refuses an operand outside 0..255" (R89). -/
def asmOperand (n : Nat) : Bool := n ≤ 255

/-- The lines the assembler takes (R89). It does not check the document's ranges, which the command checks. -/
def AsmLine.wellFormed : AsmLine → Bool
  | .enc v => asmOperand v
  | .dec b => asmOperand b
  | .gettime => true
  | .settime h m s => asmOperand h && asmOperand m && asmOperand s
  | .word w => w < 2 ^ Config.cmdWidth

end Sys2Proof
end

