-- ==== Sys2Proof/Decode.lean ====
section
/-! DEFINITION. Decoding a command word (30_encoding rules R81 to R88), total on all 2^32 words, and the encoder and the
assembler written from the same tables (rules R84, R89). -/

namespace Sys2Proof

/-- Why a word is no command (R86). -/
inductive IllegalWord where
  /-- `OP` is 0x0 or 0x5 to 0xF (R87). -/
  | reservedOp
  /-- `OP` is a command's and a must-be-0 bit of it is set (R82). -/
  | mustBeZeroBit
  deriving DecidableEq, Repr

/-- What a word decodes to (R85). -/
inductive Decoded where
  | instr (i : Instr)
  | illegal (why : IllegalWord)
  deriving DecidableEq, Repr

/-- A row of the opcode map: a word w is this row's exactly when `w & mask = value` (R84). -/
structure OpRow where
  mnemonic : String
  value : Word
  mask : Word
  deriving DecidableEq, Repr

/-- ENC's row (R84). -/
def rowEnc : OpRow := ⟨"ENC", 0x10000000#32, 0xFFFFFF00#32⟩

/-- DEC's row (R84). -/
def rowDec : OpRow := ⟨"DEC", 0x20000000#32, 0xFFFFFF00#32⟩

/-- GETTIME's row (R84). -/
def rowGettime : OpRow := ⟨"GETTIME", 0x30000000#32, 0xFFFFFFFF#32⟩

/-- SETTIME's row (R84). -/
def rowSettime : OpRow := ⟨"SETTIME", 0x40000000#32, 0xFF000000#32⟩

/-- The opcode map (R84). -/
def opRows : List OpRow := [rowEnc, rowDec, rowGettime, rowSettime]

/-- A word selects a row (R84). -/
def OpRow.selects (r : OpRow) (w : Word) : Bool := w &&& r.mask == r.value

/-- The row of a command. -/
def Instr.row : Instr → OpRow
  | .enc _ => rowEnc
  | .dec _ => rowDec
  | .gettime => rowGettime
  | .settime _ _ _ => rowSettime

/-- `OP`, bits 31:28 (R81). -/
def fieldOp (w : Word) : BitVec 4 := w.extractLsb' 28 4

/-- `F0`, bits 7:0 (R81): v, b or s (R83). -/
def fieldF0 (w : Word) : Byte := w.extractLsb' 0 8

/-- `F1`, bits 15:8 (R81): m (R83). -/
def fieldF1 (w : Word) : Byte := w.extractLsb' 8 8

/-- `F2`, bits 23:16 (R81): h (R83). -/
def fieldF2 (w : Word) : Byte := w.extractLsb' 16 8

/-- The name of an illegal word's fault in form (R86): `OP` of one of the four commands means a must-be-0 bit is set. -/
def illegalWhy (w : Word) : IllegalWord :=
  if 1 ≤ (fieldOp w).toNat ∧ (fieldOp w).toNat ≤ 4 then .mustBeZeroBit else .reservedOp

/-- Decoding, as rule R85's pseudocode. -/
def decode (w : Word) : Decoded :=
  if rowEnc.selects w then .instr (.enc (fieldF0 w))
  else if rowDec.selects w then .instr (.dec (fieldF0 w))
  else if rowGettime.selects w then .instr .gettime
  else if rowSettime.selects w then .instr (.settime (fieldF2 w) (fieldF1 w) (fieldF0 w))
  else .illegal (illegalWhy w)

/-- The word of a command: the bit patterns of rule R84, bit 31 first. -/
def encode : Instr → Word
  | .enc v => (0x1#4 ++ 0#20 : BitVec 24) ++ v
  | .dec b => (0x2#4 ++ 0#20 : BitVec 24) ++ b
  | .gettime => 0x3#4 ++ 0#28
  | .settime h m s => (((0x4#4 ++ 0#4 : Byte) ++ h : BitVec 16) ++ m : BitVec 24) ++ s

/-- The number the assembler gives a line (R89's table), before its operands are checked. -/
def AsmLine.number : AsmLine → Nat
  | .enc v => 0x10000000 + v
  | .dec b => 0x20000000 + b
  | .gettime => 0x30000000
  | .settime h m s => 0x40000000 + h * 65536 + m * 256 + s
  | .word w => w

/-- The word the assembler gives a line, or none where it refuses the line (R89). -/
def AsmLine.assemble (l : AsmLine) : Option Word :=
  if l.wellFormed then some (BitVec.ofNat 32 l.number) else none

/-- What the decoder reads from an instruction whose bits are w (the host's question). A command is one 32-bit word on
the channel (R80), so there is no byte order; a row longer than a command word is no command. -/
def decodeTableWord (nbits w : Nat) : Option Instr :=
  if nbits ≤ Config.cmdWidth then
    match decode (BitVec.ofNat 32 (w % 2 ^ nbits)) with
    | .instr i => some i
    | .illegal _ => none
  else none

end Sys2Proof
end

