-- ==== Sys2Proof/Machine/State.lean ====
section
/-! DEFINITION. The state of CORE (10_state rules R20 to R38), of its environment as far as the spec gives it (20_memory
rules R50 to R54, R71), and of the host's side (rule R31, 70_reset_and_hazards rule R200); the faults and the refusals. -/

namespace Sys2Proof.Machine

/-- Why a step faults (60_exceptions rule R170): the model's mark FAULTED (R37). All are safe: a run that reaches one has
no good end, and no claim about its later states can be proved. -/
inductive Fault where
  /-- COLLABORATOR_COUNT: raised by RD_REQ when BusRequest answered more than 7 bytes (R124). Safe. -/
  | collaboratorCount
  /-- UNWRITTEN_TOD: raised by a host read of the port `tod` while TODV = 0 (R24). Safe. -/
  | unwrittenTod
  /-- UNWRITTEN_RES: raised by a host read of the port `res` while RESV = 0 (R26). Safe. -/
  | unwrittenRes
  deriving DecidableEq, Repr

/-- Why a step is refused (60_exceptions rule R171): the model's mark REFUSED (R37). All are safe. -/
inductive Refusal where
  /-- An instruction without a meaning yet, by its mnemonic: raised only in exec's arms. No arm raises it. Safe. -/
  | notModelled (mnemonic : String)
  /-- HOUR_MODE_H12: raised by GETTIME while HOUR_MODE = H12 (R129): no source gives a 12-hour decode. Safe. -/
  | hourModeH12
  deriving DecidableEq, Repr

/-- SEQ, the sequencer state: the block's program counter (R22). Codes 13 to 15 are never reached (log entry 11). -/
inductive SeqState where
  | idle
  | rdBegin
  | rdPtr
  | rdEnd
  | rdReq
  | rdRecv
  | rdFin
  | wrBegin
  | wrPtr
  | wrS
  | wrM
  | wrH
  | wrEnd
  deriving DecidableEq, Repr

/-- STATUS.CODE (R28). Value 6 is reserved and no rule produces it (log entry 11). -/
inductive Code where
  | none
  | ok
  | invalidArgument
  | malformedRegisterData
  | transportFailure
  | illegalCommand
  | pending
  deriving DecidableEq, Repr

/-- One call of the bus primitive with its answer (R55 to R59): an element of the trace (R66). -/
inductive BusCall where
  | begin (addr : DeviceAddr)
  | send (b : Byte)
  | finish (ok : Bool)
  | request (addr : DeviceAddr) (count n : Nat)
  | receive (b : Byte)
  deriving DecidableEq, Repr

/-- What the host read from a port (R31). -/
inductive PortRead where
  | status (v : BitVec 16)
  | tod (v : BitVec 24)
  | res (v : Byte)
  deriving DecidableEq, Repr

/-- One move of the host or of the environment (R17, R20, R200; log entries 1, 9, 14, 16, 19). -/
inductive Event where
  /-- The host gives a command word on the channel, which holds it while CORE is busy (R31, R195). -/
  | command (w : Word)
  /-- Nothing comes from outside before CORE's next step. -/
  | core
  /-- The host asserts reset (R190). -/
  | reset
  /-- The host reads the port `status` (R27). -/
  | readStatus
  /-- The host reads the port `tod` (R23). -/
  | readTod
  /-- The host reads the port `res` (R25). -/
  | readRes
  /-- RTC register r becomes b (R61; or the host writes it while BUSY = 0, R200). -/
  | rtcSet (r : Fin 7) (b : Byte)
  /-- The reference environment's clock advances t seconds ("tick t", R71). -/
  | rtcTick (t : Nat)
  /-- The host uses the bus itself and leaves the RTC's pointer at p (R200); held while BUSY = 1 (R196). -/
  | hostBus (p : Byte)
  /-- The collaborator stops answering (I6). -/
  | stall
  /-- The collaborator answers again (I6). -/
  | resume
  deriving DecidableEq, Repr

/-- Memory is a list of address and byte, sorted by address, without an entry equal to what an unlisted address reads
as. Here it is the RTC's register space (R50 (b)). -/
abbrev Memory := List Host.Cell

/-- The RTC and the bus collaborator, as far as the spec gives them (R36, R50 to R53, R71). -/
structure Rtc where
  /-- The RTC's registers (R51). -/
  mem : Memory
  /-- The RTC's register pointer (R52). -/
  ptr : Byte
  /-- A write transaction is open (R53; W of R71). -/
  writeOpen : Bool
  /-- The next byte sent sets the pointer (R52 (a); F of R71). -/
  firstByte : Bool
  /-- The received bytes that wait for BusReceive (R53; Q of R71). -/
  rxq : List Byte
  /-- The reference environment's acknowledge bit (ACK of R71). -/
  present : Bool
  deriving DecidableEq, Repr

/-- Where an answer comes from that no list gives (log entry 4). -/
inductive EnvMode where
  /-- A free draw (R61). -/
  | free
  /-- The reference environment (R71). -/
  | reference
  deriving DecidableEq, Repr

/-- How the environment answers the bus calls (R61). Model bookkeeping (log entry 4). -/
structure Env where
  mode : EnvMode
  /-- The next answers of BusEnd. -/
  acks : List Bool
  /-- The next answers of BusRequest. -/
  counts : List Nat
  /-- The next answers of BusReceive. -/
  bytes : List Byte
  /-- How many free values have been drawn. -/
  draws : Nat
  /-- The collaborator does not answer (I6). -/
  stalled : Bool
  deriving DecidableEq, Repr

/-- The state: CORE's registers (R21), HOUR_MODE (R9), the environment (R36) and the host's side (R31, R201). -/
structure State where
  /-- SEQ (R22). -/
  seq : SeqState
  /-- TOD_S (R23). -/
  todS : Byte
  /-- TOD_M (R23). -/
  todM : Byte
  /-- TOD_H (R23). -/
  todH : Byte
  /-- TODV (R24). -/
  todv : Bool
  /-- RES (R25). -/
  res : Byte
  /-- RESV (R26). -/
  resv : Bool
  /-- STATUS.CODE (R28). -/
  code : Code
  /-- STATUS.DETAIL (R29). -/
  detail : BitVec 3
  /-- OPD_S (R33). -/
  opdS : Byte
  /-- OPD_M (R33). -/
  opdM : Byte
  /-- OPD_H (R33). -/
  opdH : Byte
  /-- RXN (R33). -/
  rxn : BitVec 3
  /-- RXI (R33). -/
  rxi : BitVec 3
  /-- RXB0 (R33). -/
  rxb0 : Byte
  /-- RXB1 (R33). -/
  rxb1 : Byte
  /-- RXB2 (R33). -/
  rxb2 : Byte
  /-- HOUR_MODE (R9): configuration, which no step writes (R193; log entry 12). -/
  hourMode : HourMode
  /-- The RTC and the bus collaborator (R36). -/
  rtc : Rtc
  /-- How the environment answers (R61). -/
  env : Env
  /-- What the host and the environment do next, in order (log entry 1). -/
  events : List Event
  /-- The trace of bus calls, newest first (R66; log entry 15). -/
  calls : List BusCall
  /-- What the host has read, newest first (R31; log entry 15). -/
  seen : List PortRead
  deriving DecidableEq, Repr

/-- The environment's part before anything has happened. It is no value of the spec's: R38, "their values are the
environment's" (log entry 5). -/
def Rtc.initial : Rtc :=
  { mem := [], ptr := 0x00#8, writeOpen := false, firstByte := false, rxq := [], present := true }

/-- The environment answers by free draws; no answer is listed (log entry 4). -/
def Env.initial : Env :=
  { mode := .free, acks := [], counts := [], bytes := [], draws := 0, stalled := false }

/-- The machine after reset (R38): `SEQ = IDLE`, CODE NONE, DETAIL 0, `TODV = RESV = 0`. The registers R38 calls
unspecified hold 0 here (DESIGN CHOICE, log entry 2). -/
def State.reset : State :=
  { seq := .idle, todS := 0x00#8, todM := 0x00#8, todH := 0x00#8, todv := false, res := 0x00#8, resv := false,
    code := .none, detail := 0#3, opdS := 0x00#8, opdM := 0x00#8, opdH := 0x00#8, rxn := 0#3, rxi := 0#3,
    rxb0 := 0x00#8, rxb1 := 0x00#8, rxb2 := 0x00#8, hourMode := Config.hourModeDefault,
    rtc := Rtc.initial, env := Env.initial, events := [], calls := [], seen := [] }

/-- What a step answers. -/
abbrev Outcome := Host.Outcome State Fault Refusal

end Sys2Proof.Machine
end

