-- ==== Sys2Proof/Machine/Ops.lean ====
section
/-! DEFINITION. The named operations: reading and writing the RTC's register space (00_scope rule R13), the register
updates, and completing a command (rule R14), which is all that taking an error condition is in CORE (60_exceptions rule
R164): there are no traps, so nothing is saved and nothing returns (rule R165). -/

namespace Sys2Proof.Machine

/-! ### The RTC's register space -/

/-- How many addresses the register space has: the pointer is one byte (R50). -/
def Memory.size : Nat := 256

/-- What a register that nothing has written reads as (DESIGN CHOICE, log entry 5). -/
def Memory.unlisted : Byte := 0x00#8

/-- The byte of register a: `MemRead(a, 1)` (R13). -/
def Memory.read (m : Memory) (a : Nat) : Byte :=
  match m with
  | [] => Memory.unlisted
  | (k, b) :: rest => if k = a then b else Memory.read rest a

/-- The byte v goes to register a: `MemWrite(a, 1, v)` (R13), keeping the canonical form. -/
def Memory.write (m : Memory) (a : Nat) (v : Byte) : Memory :=
  match m with
  | [] => if v = Memory.unlisted then [] else [(a, v)]
  | (k, b) :: rest =>
    if k < a then (k, b) :: Memory.write rest a v
    else
      let tail := if k = a then rest else (k, b) :: rest
      if v = Memory.unlisted then tail else (a, v) :: tail

/-- The canonical form of entries at addresses from lo on: strictly rising, inside the space, none that reads as unlisted. -/
def Memory.canonicalFrom (lo : Nat) : Memory → Bool
  | [] => true
  | (k, b) :: rest =>
    decide (lo ≤ k) && decide (k < Memory.size) && b != Memory.unlisted && Memory.canonicalFrom (k + 1) rest

/-- The canonical form of a memory. -/
def Memory.wf (m : Memory) : Bool := Memory.canonicalFrom 0 m

/-- The first n registers take free values, drawn from number d on (R146, R191). -/
def Memory.freeFirst (m : Memory) (d : Nat) : Nat → Memory
  | 0 => m
  | n + 1 => Memory.write (Memory.freeFirst m d n) n (Config.freeByte (d + n))

/-! ### Register updates -/

/-- `SEQ <- q` (R22). -/
def State.setSeq (s : State) (q : SeqState) : State := { s with seq := q }

/-- `STATUS.CODE <- c; STATUS.DETAIL <- d` (R27). -/
def State.setStatus (s : State) (c : Code) (d : BitVec 3) : State := { s with code := c, detail := d }

/-- `RES <- b; RESV <- 1` (R25, R26). -/
def State.setRes (s : State) (b : Byte) : State := { s with res := b, resv := true }

/-- `TOD_S <- sec; TOD_M <- min; TOD_H <- hour; TODV <- 1` (R23, R24, R130). -/
def State.setTod (s : State) (hour min sec : Byte) : State :=
  { s with todS := sec, todM := min, todH := hour, todv := true }

/-- `OPD_S <- sec; OPD_M <- min; OPD_H <- hour` (R140). -/
def State.setOpd (s : State) (hour min sec : Byte) : State := { s with opdS := sec, opdM := min, opdH := hour }

/-- `RXN <- n; RXI <- 0` (R124). -/
def State.startReceive (s : State) (n : BitVec 3) : State := { s with rxn := n, rxi := 0#3 }

/-- The byte b goes where RXI says, and `RXI <- RXI + 1` (R125). Bytes 3 to 6 go nowhere (R128). -/
def State.receiveInto (s : State) (b : Byte) : State :=
  { s with
    rxb0 := if s.rxi = 0#3 then b else s.rxb0
    rxb1 := if s.rxi = 1#3 then b else s.rxb1
    rxb2 := if s.rxi = 2#3 then b else s.rxb2
    rxi := s.rxi + 1#3 }

/-- The RTC and the bus collaborator become r. -/
def State.setRtc (s : State) (r : Rtc) : State := { s with rtc := r }

/-- The way the environment answers becomes e. -/
def State.setEnv (s : State) (e : Env) : State := { s with env := e }

/-- What the host and the environment do next becomes es. -/
def State.setEvents (s : State) (es : List Event) : State := { s with events := es }

/-- The trace grows by the call c (R66). -/
def State.logCall (s : State) (c : BusCall) : State := { s with calls := c :: s.calls }

/-- The host has read p (R31). -/
def State.logRead (s : State) (p : PortRead) : State := { s with seen := p :: s.seen }

/-! ### Acceptance, completion and error conditions -/

/-- The error conditions (R160). -/
inductive Condition where
  | invalidArgument
  | malformedRegisterData
  | transportFailure
  | illegalCommand
  deriving DecidableEq, Repr

/-- The code of a condition (R28, R160). -/
def Condition.code : Condition → Code
  | .invalidArgument => .invalidArgument
  | .malformedRegisterData => .malformedRegisterData
  | .transportFailure => .transportFailure
  | .illegalCommand => .illegalCommand

/-- `complete(code, detail)`: the command ends with the code and the DETAIL, and CORE is idle (R14). -/
def complete (c : Code) (d : BitVec 3) (s : State) : State := (s.setStatus c d).setSeq .idle

/-- `raise E(detail)`: a condition is the completion of the command that met it (R14, R164). -/
def raiseCondition (e : Condition) (d : BitVec 3) (s : State) : State := complete e.code d s

/-- A command that goes to the bus begins: `STATUS.CODE <- PENDING; STATUS.DETAIL <- 0; SEQ <- q` (R120, R140). -/
def beginSequence (q : SeqState) (s : State) : State := (s.setStatus .pending 0#3).setSeq q

/-- A command is accepted only when `SEQ = IDLE`; while CORE is busy the channel does not take the word, and nothing
changes (R20 (a), R31, R195; log entry 13). -/
def whenIdle (s : State) (accepted : State → Outcome) : Outcome :=
  if s.seq = .idle then accepted s else .next s

end Sys2Proof.Machine
end

