-- ==== Sys2Proof/Machine/Operands.lean ====
section
/-! DEFINITION. The pure functions of the BCD Codec (40_codec rules R100 to R102, 00_scope rule R15), the ranges of a time
of day (rule R10), and the fields GETTIME extracts (41_transport rule R127). -/

namespace Sys2Proof.Machine

/-- `hi(b) = b[7:4]`, the tens nibble, as a number (R15). -/
def hi (b : Byte) : Nat := b.toNat / 16

/-- `lo(b) = b[3:0]`, the units nibble, as a number (R15). -/
def lo (b : Byte) : Nat := b.toNat % 16

/-- `enc8(v) = (v / 10) * 16 + (v % 10)` (R100). Defined for v ≤ 99 only, and applied to nothing else (log entry 17). -/
def enc8 (v : Byte) : Byte := BitVec.ofNat 8 (v.toNat / 10 * 16 + v.toNat % 10)

/-- `dec8(b) = hi(b) * 10 + lo(b)`, for every byte (R101). Its largest value is 165, so it fits. -/
def dec8 (b : Byte) : Byte := BitVec.ofNat 8 (hi b * 10 + lo b)

/-- `bcd_ok(b)`: both nibbles are decimal digits (R102). -/
def bcdOk (b : Byte) : Bool := decide (hi b ≤ 9) && decide (lo b ≤ 9)

/-- Seconds out of range (R10). -/
def secondsOut (v : Byte) : Bool := decide (v.toNat > Config.maxS)

/-- Minutes out of range (R10). -/
def minutesOut (v : Byte) : Bool := decide (v.toNat > Config.maxM)

/-- Hours out of range (R10). -/
def hoursOut (v : Byte) : Bool := decide (v.toNat > Config.maxH)

/-- `RXB0 & 0x7F`: the clock-halt flag, bit 7, is masked off (R127). -/
def maskClockHalt (b : Byte) : Byte := b &&& 0x7F#8

/-- rs, the raw seconds field (R127). -/
def rawSeconds (s : State) : Byte := maskClockHalt s.rxb0

/-- rm, the raw minutes field: no bit is masked (R127). -/
def rawMinutes (s : State) : Byte := s.rxb1

/-- rh, the raw hours field: no bit is masked (R127). -/
def rawHours (s : State) : Byte := s.rxb2

end Sys2Proof.Machine
end

