-- ==== Sys2Proof/Machine/Flags.lean ====
section
/-! DEFINITION. The STATUS word and its fields (10_state rules R27 to R30), the DETAIL masks of every condition (rule R29),
and the other two ports (rules R23, R25). -/

namespace Sys2Proof.Machine

/-- The 3-bit value `{b2, b1, b0}` (R11). -/
def mask3 (b2 b1 b0 : Bool) : BitVec 3 := (BitVec.ofBool b2 ++ BitVec.ofBool b1 : BitVec 2) ++ BitVec.ofBool b0

/-- DETAIL of an ENC whose operand exceeds 99: 0b001 (R104). -/
def detailOperand : BitVec 3 := 0b001#3

/-- DETAIL of a DEC: bit 1 tens nibble > 9, bit 0 units nibble > 9 (R107). -/
def detailNibbles (b : Byte) : BitVec 3 := mask3 false (decide (hi b > 9)) (decide (lo b > 9))

/-- DETAIL of a SETTIME: bit 2 hours > 23, bit 1 minutes > 59, bit 0 seconds > 59 (R140). -/
def detailTime (h m s : Byte) : BitVec 3 := mask3 (hoursOut h) (minutesOut m) (secondsOut s)

/-- DETAIL of a full read: for each field, not BCD or out of range: bit 2 hours, bit 1 minutes, bit 0 seconds (R130). -/
def detailFields (rh rm rs : Byte) : BitVec 3 :=
  mask3 (!bcdOk rh || hoursOut (dec8 rh)) (!bcdOk rm || minutesOut (dec8 rm)) (!bcdOk rs || secondsOut (dec8 rs))

/-- DETAIL of the read that RD_FIN completes (R127, R130). -/
def readDetail (s : State) : BitVec 3 := detailFields (rawHours s) (rawMinutes s) (rawSeconds s)

/-- DETAIL of a transport failure in BusEnd: the write transaction was not acknowledged (R123, R146). -/
def detailNack : BitVec 3 := 0b001#3

/-- DETAIL of a short read (R126). -/
def detailShort : BitVec 3 := 0b010#3

/-- The 4-bit code of a sequencer state (R22). -/
def SeqState.bits : SeqState → BitVec 4
  | .idle => 0#4
  | .rdBegin => 1#4
  | .rdPtr => 2#4
  | .rdEnd => 3#4
  | .rdReq => 4#4
  | .rdRecv => 5#4
  | .rdFin => 6#4
  | .wrBegin => 7#4
  | .wrPtr => 8#4
  | .wrS => 9#4
  | .wrM => 10#4
  | .wrH => 11#4
  | .wrEnd => 12#4

/-- The 3-bit value of STATUS.CODE (R28). -/
def Code.bits : Code → BitVec 3
  | .none => 0#3
  | .ok => 1#3
  | .invalidArgument => 2#3
  | .malformedRegisterData => 3#3
  | .transportFailure => 4#3
  | .illegalCommand => 5#3
  | .pending => 7#3

/-- `STATUS.BUSY = (SEQ ≠ IDLE)`, computed (R30). -/
def State.busy (s : State) : Bool := s.seq != .idle

/-- The port `status` (R27): bits 15:11, 7 and 3 are reserved and read 0. -/
def State.statusPort (s : State) : BitVec 16 :=
  (0#5 ++ BitVec.ofBool s.resv ++ BitVec.ofBool s.todv ++ BitVec.ofBool s.busy : BitVec 8)
    ++ (0#1 ++ s.detail ++ 0#1 ++ s.code.bits : BitVec 8)

/-- The port `tod`: `{TOD_H, TOD_M, TOD_S}` (R23, R54). -/
def State.todPort (s : State) : BitVec 24 := (s.todH ++ s.todM : BitVec 16) ++ s.todS

/-- The port `res` (R25). -/
def State.resPort (s : State) : Byte := s.res

end Sys2Proof.Machine
end

