-- ==== Sys2Proof/Machine/Bus.lean ====
section
/-! DEFINITION. The bus primitive (20_memory rules R53, R55 to R61) and the RTC behind it (rules R51, R52, R71).

Each call is logged in the trace. An answer is the next listed one; where none is listed it is a free draw (R61), or the
reference environment's (R71), as `env.mode` says (log entry 4). The RTC's registers and pointer move as rule R52 says;
what a failed write or an abandoned sequence leaves there is free (R146, R191; log entries 7, 8). -/

namespace Sys2Proof.Machine

/-! ### The RTC's pointer -/

/-- The pointer after one byte at p (R52): in general only from registers 0 to 6 (log entry 6); the reference
environment's pointer is an 8-bit counter (R71). -/
def pointerAfter (mode : EnvMode) (p : Byte) : Byte :=
  match mode with
  | .reference => p + 1#8
  | .free => if p.toNat ≤ 6 then p + 1#8 else Config.pointerPast p

/-- The n consecutive registers from the pointer on (R52 (c)). -/
def bytesFrom (mode : EnvMode) (m : Memory) (p : Byte) : Nat → List Byte
  | 0 => []
  | n + 1 => Memory.read m p.toNat :: bytesFrom mode m (pointerAfter mode p) n

/-- The pointer after n bytes from p on (R52 (c)). -/
def pointerAfterAll (mode : EnvMode) (p : Byte) : Nat → Byte
  | 0 => p
  | n + 1 => pointerAfterAll mode (pointerAfter mode p) n

/-! ### Answers -/

/-- The bit BusEnd answers in s (R57, R61). -/
def answerAck (s : State) : Bool :=
  match s.env.acks with
  | ok :: _ => ok
  | [] =>
    match s.env.mode with
    | .reference => s.rtc.present
    | .free => Config.freeAck s.env.draws

/-- The count BusRequest answers in s when k bytes are asked for (R58, R61). A listed count may break the contract. -/
def answerCount (k : Nat) (s : State) : Nat :=
  match s.env.counts with
  | n :: _ => n
  | [] =>
    match s.env.mode with
    | .reference => k
    | .free => (Config.freeCount s.env.draws).val

/-- The byte BusReceive answers in s (R59, R61): in the reference environment the first that waits, and a free byte if
none waits, which no run of CORE meets (log entry 18). -/
def answerByte (s : State) : Byte :=
  match s.env.bytes with
  | b :: _ => b
  | [] =>
    match s.env.mode, s.rtc.rxq with
    | .reference, b :: _ => b
    | _, _ => Config.freeByte s.env.draws

/-- The environment after an answer: the listed answers that remain, and a fresh number for the next free draw. -/
def afterAck (e : Env) : Env := { e with acks := e.acks.tail, draws := e.draws + 1 }

/-- As `afterAck`, for a count. -/
def afterCount (e : Env) : Env := { e with counts := e.counts.tail, draws := e.draws + 1 }

/-- As `afterAck`, for a byte. -/
def afterByte (e : Env) : Env := { e with bytes := e.bytes.tail, draws := e.draws + 1 }

/-! ### The five calls -/

/-- `BusBegin(a)` opens a write transaction (R53, R55). -/
def busBegin (a : DeviceAddr) (s : State) : State :=
  (s.setRtc { s.rtc with writeOpen := true, firstByte := true }).logCall (.begin a)

/-- The RTC after a byte is sent: the first sets the pointer, each further one is stored there and the pointer advances
(R52 (a), (b)). -/
def rtcAfterSend (mode : EnvMode) (b : Byte) (r : Rtc) : Rtc :=
  if r.firstByte then { r with ptr := b, firstByte := false }
  else { r with mem := Memory.write r.mem r.ptr.toNat b, ptr := pointerAfter mode r.ptr }

/-- `BusSend(b)` sends a byte in the open write transaction (R56). -/
def busSend (b : Byte) (s : State) : State :=
  (s.setRtc (rtcAfterSend s.env.mode b s.rtc)).logCall (.send b)

/-- The RTC after the transaction is closed. Where it was not acknowledged, the pointer is free outside the reference
environment (log entry 7). -/
def rtcAfterEnd (e : Env) (ok : Bool) (r : Rtc) : Rtc :=
  { r with
    writeOpen := false
    ptr := if ok = false ∧ e.mode = .free then Config.freeByte e.draws else r.ptr }

/-- `BusEnd()` closes the write transaction (R57); its answer is `answerAck s`. -/
def busEnd (s : State) : State :=
  ((s.setRtc (rtcAfterEnd s.env (answerAck s) s.rtc)).setEnv (afterAck s.env)).logCall (.finish (answerAck s))

/-- The RTC after n bytes were requested: they wait, and the pointer has passed them (R52 (c), R53). -/
def rtcAfterRequest (mode : EnvMode) (n : Nat) (r : Rtc) : Rtc :=
  { r with rxq := bytesFrom mode r.mem r.ptr n, ptr := pointerAfterAll mode r.ptr n }

/-- `BusRequest(a, k)` asks for k bytes (R58); its answer is `answerCount k s`, at most k under the contract. -/
def busRequest (a : DeviceAddr) (k : Nat) (s : State) : State :=
  ((s.setRtc (rtcAfterRequest s.env.mode (answerCount k s) s.rtc)).setEnv (afterCount s.env)).logCall
    (.request a k (answerCount k s))

/-- `BusReceive()` takes the next byte that waits (R59); its answer is `answerByte s`. -/
def busReceive (s : State) : State :=
  ((s.setRtc { s.rtc with rxq := s.rtc.rxq.tail }).setEnv (afterByte s.env)).logCall (.receive (answerByte s))

/-! ### What the spec leaves to the environment -/

/-- After a SETTIME that was not acknowledged, RTC registers 0 to 2 hold any values (R146, I10), outside the reference
environment (log entry 7). -/
def loseWrite (s : State) : State :=
  match s.env.mode with
  | .reference => s
  | .free =>
    (s.setRtc { s.rtc with mem := Memory.freeFirst s.rtc.mem s.env.draws Config.writeCount }).setEnv
      { s.env with draws := s.env.draws + Config.writeCount }

/-- The RTC and the collaborator in any state, drawn from number d on (R191, I9). -/
def anyRtc (d : Nat) (r : Rtc) : Rtc :=
  { r with
    mem := Memory.freeFirst r.mem d Config.readCount
    ptr := Config.freeByte (d + 7)
    writeOpen := Config.freeFlag (d + 8)
    firstByte := Config.freeFlag (d + 9)
    rxq := Config.freeQueue (d + 10) }

/-- A sequence is abandoned by reset: what the environment does then is not in the source (R191; log entry 8). The
reference environment keeps its state (R71, program P6). -/
def abandonSequence (s : State) : State :=
  match s.env.mode with
  | .reference => s
  | .free => (s.setRtc (anyRtc s.env.draws s.rtc)).setEnv { s.env with draws := s.env.draws + 11 }

/-- RTC register r becomes b (R61, R198). -/
def rtcSet (r : Fin 7) (b : Byte) (s : State) : State :=
  s.setRtc { s.rtc with mem := Memory.write s.rtc.mem r.val b }

/-- The seconds byte after "tick t" (R71): bit 7 is kept; a sum above 59 has no stated result (log entry 16). -/
def tickedSeconds (b : Byte) (t : Nat) : Byte :=
  let sum := (dec8 (maskClockHalt b)).toNat + t
  if sum ≤ Config.maxS then (b &&& 0x80#8) ||| enc8 (BitVec.ofNat 8 sum) else Config.freeTick b t

/-- "tick t" of the reference environment: the seconds register alone changes (R71). -/
def rtcTick (t : Nat) (s : State) : State :=
  rtcSet 0 (tickedSeconds (Memory.read s.rtc.mem 0) t) s

/-- The host has used the bus and left the pointer at p (R200). -/
def hostUsesBus (p : Byte) (s : State) : State := s.setRtc { s.rtc with ptr := p }

end Sys2Proof.Machine
end

