-- ==== Sys2Proof/Machine/Codec.lean ====
section
/-! DEFINITION. The BCD Codec's commands ENC and DEC (40_codec rules R103 to R109). -/

namespace Sys2Proof.Machine

/-- ENC v (R103, R104): `RES <- enc8(v)`, or INVALID_ARGUMENT when v > 99. -/
def execEnc (v : Byte) (s : State) : Outcome :=
  whenIdle s fun s =>
    if v.toNat > 99 then .next (raiseCondition .invalidArgument detailOperand s)
    else .next (complete .ok 0#3 (s.setRes (enc8 v)))

/-- DEC b (R107, R108): `RES <- dec8(b)`, or MALFORMED_REGISTER_DATA when a nibble exceeds 9. -/
def execDec (b : Byte) (s : State) : Outcome :=
  whenIdle s fun s =>
    if detailNibbles b ≠ 0#3 then .next (raiseCondition .malformedRegisterData (detailNibbles b) s)
    else .next (complete .ok 0#3 (s.setRes (dec8 b)))

end Sys2Proof.Machine
end

