-- ==== Sys2Proof/Machine/Transport.lean ====
section
/-! DEFINITION. The RTC Time Transport: the acceptance of GETTIME and SETTIME (41_transport rules R120, R129, R140) and the
step of each sequencer state (rules R121 to R130, R141 to R146). -/

namespace Sys2Proof.Machine

/-! ### Acceptance -/

/-- GETTIME (R120): the read sequence begins. With `HOUR_MODE = H12` it is refused (R129). -/
def execGettime (s : State) : Outcome :=
  whenIdle s fun s =>
    match s.hourMode with
    | .h12 => .refused .hourModeH12
    | .h24 => .next (beginSequence .rdBegin s)

/-- SETTIME h, m, s (R140): out-of-range fields give INVALID_ARGUMENT without a bus call; otherwise the encoded bytes are
latched and the write sequence begins. -/
def execSettime (h m sec : Byte) (s : State) : Outcome :=
  whenIdle s fun s =>
    if detailTime h m sec ≠ 0#3 then .next (raiseCondition .invalidArgument (detailTime h m sec) s)
    else .next (beginSequence .wrBegin (s.setOpd (enc8 h) (enc8 m) (enc8 sec)))

/-! ### The read sequence -/

/-- RD_BEGIN (R121). -/
def stepRdBegin (s : State) : Outcome := .next ((busBegin Config.devAddr s).setSeq .rdPtr)

/-- RD_PTR (R122). -/
def stepRdPtr (s : State) : Outcome := .next ((busSend Config.ptrStart s).setSeq .rdEnd)

/-- RD_END (R123): a pointer write that is not acknowledged ends the command. -/
def stepRdEnd (s : State) : Outcome :=
  if answerAck s then .next ((busEnd s).setSeq .rdReq)
  else .next (raiseCondition .transportFailure detailNack (busEnd s))

/-- RD_REQ (R124): more than 7 bytes is a fault. -/
def stepRdReq (s : State) : Outcome :=
  if answerCount Config.readCount s > Config.readCount then .fault .collaboratorCount
  else .next (((busRequest Config.devAddr Config.readCount s).startReceive
    (BitVec.ofNat 3 (answerCount Config.readCount s))).setSeq
      (if answerCount Config.readCount s = 0 then .rdFin else .rdRecv))

/-- RD_RECV (R125): exactly RXN bytes are received. -/
def stepRdRecv (s : State) : Outcome :=
  .next (((busReceive s).receiveInto (answerByte s)).setSeq (if s.rxi + 1#3 = s.rxn then .rdFin else .rdRecv))

/-- RD_FIN after a full transfer in 24-hour mode (R127, R130). -/
def validateRead (s : State) : State :=
  if readDetail s ≠ 0#3 then raiseCondition .malformedRegisterData (readDetail s) s
  else complete .ok 0#3 (s.setTod (dec8 (rawHours s)) (dec8 (rawMinutes s)) (dec8 (rawSeconds s)))

/-- RD_FIN (R126, R127): a short transfer is not decoded. In 12-hour mode, which no run of CORE meets here, there is no
decoding (R129; log entry 12). -/
def stepRdFin (s : State) : Outcome :=
  if s.rxn.toNat < Config.readCount then .next (raiseCondition .transportFailure detailShort s)
  else
    match s.hourMode with
    | .h12 => .refused .hourModeH12
    | .h24 => .next (validateRead s)

/-! ### The write sequence -/

/-- WR_BEGIN (R141). -/
def stepWrBegin (s : State) : Outcome := .next ((busBegin Config.devAddr s).setSeq .wrPtr)

/-- WR_PTR (R142). -/
def stepWrPtr (s : State) : Outcome := .next ((busSend Config.ptrStart s).setSeq .wrS)

/-- WR_S (R143). -/
def stepWrS (s : State) : Outcome := .next ((busSend s.opdS s).setSeq .wrM)

/-- WR_M (R144). -/
def stepWrM (s : State) : Outcome := .next ((busSend s.opdM s).setSeq .wrH)

/-- WR_H (R145). -/
def stepWrH (s : State) : Outcome := .next ((busSend s.opdH s).setSeq .wrEnd)

/-- WR_END (R146). -/
def stepWrEnd (s : State) : Outcome :=
  if answerAck s then .next (complete .ok 0#3 (busEnd s))
  else .next (raiseCondition .transportFailure detailNack (loseWrite (busEnd s)))

/-! ### One sequencer step -/

/-- The states that make a bus call (R22). -/
def SeqState.makesCall : SeqState → Bool
  | .idle => false
  | .rdFin => false
  | .rdBegin => true
  | .rdPtr => true
  | .rdEnd => true
  | .rdReq => true
  | .rdRecv => true
  | .wrBegin => true
  | .wrPtr => true
  | .wrS => true
  | .wrM => true
  | .wrH => true
  | .wrEnd => true

/-- The step of the sequencer state that SEQ names (R20 (b), R22). An idle CORE has none (R177; log entry 14). -/
def sequencerMove (s : State) : Outcome :=
  match s.seq with
  | .idle => .next s
  | .rdBegin => stepRdBegin s
  | .rdPtr => stepRdPtr s
  | .rdEnd => stepRdEnd s
  | .rdReq => stepRdReq s
  | .rdRecv => stepRdRecv s
  | .rdFin => stepRdFin s
  | .wrBegin => stepWrBegin s
  | .wrPtr => stepWrPtr s
  | .wrS => stepWrS s
  | .wrM => stepWrM s
  | .wrH => stepWrH s
  | .wrEnd => stepWrEnd s

/-- CORE's own step (R20 (b)): one bus call with its answer, or RD_FIN. A call the collaborator does not answer leaves
CORE where it is (I6; log entry 19). -/
def sequencerStep (s : State) : Outcome :=
  if s.env.stalled = true ∧ s.seq.makesCall = true then .next s else sequencerMove s

end Sys2Proof.Machine
end

