-- ==== Sys2Proof/Machine/Dispatch.lean ====
section
/-! DEFINITION. One arm per command (30_encoding rule R80). -/

namespace Sys2Proof.Machine

def exec (i : Instr) (s : State) : Host.Outcome State Fault Refusal :=
  match i with
  | .enc v => Sys2Proof.Machine.execEnc v s
  | .dec b => Sys2Proof.Machine.execDec b s
  | .gettime => Sys2Proof.Machine.execGettime s
  | .settime h m sec => Sys2Proof.Machine.execSettime h m sec s

end Sys2Proof.Machine
end

