-- ==== Sys2Proof/Machine/Channel.lean ====
section
/-! DEFINITION. The host's side of the machine: accepting a command word (30_encoding rules R85, R86), reset
(70_reset_and_hazards rules R190, R191), port reads (60_exceptions rule R170), and the machine's next move (10_state rule
R20). -/

namespace Sys2Proof.Machine

/-- An illegal word completes at once and changes nothing else (R86). -/
def acceptIllegal (s : State) : Outcome :=
  whenIdle s fun s => .next (raiseCondition .illegalCommand 0#3 s)

/-- The word w is accepted: decoding comes first (R163). -/
def acceptWord (w : Word) (s : State) : Outcome :=
  match decode w with
  | .instr i => exec i s
  | .illegal _ => acceptIllegal s

/-- CORE's registers after a reset step (R38, R190): the unspecified ones take free values, drawn from number d on. -/
def resetRegisters (d : Nat) (s : State) : State :=
  { s with
    seq := .idle, code := .none, detail := 0#3, todv := false, resv := false
    todS := Config.freeByte d, todM := Config.freeByte (d + 1), todH := Config.freeByte (d + 2)
    res := Config.freeByte (d + 3)
    opdS := Config.freeByte (d + 4), opdM := Config.freeByte (d + 5), opdH := Config.freeByte (d + 6)
    rxb0 := Config.freeByte (d + 7), rxb1 := Config.freeByte (d + 8), rxb2 := Config.freeByte (d + 9)
    rxn := Config.freeBits3 (d + 10), rxi := Config.freeBits3 (d + 11)
    env := { s.env with draws := d + 12 } }

/-- The reset step (R190), in any state; it makes no bus call, and in mid-sequence it abandons the sequence (R191). -/
def resetCore (s : State) : State :=
  let t := if s.busy then abandonSequence s else s
  resetRegisters t.env.draws t

/-- The host reads `status`, at any time (R200). -/
def readStatus (s : State) : Outcome := .next (s.logRead (.status s.statusPort))

/-- The host reads `tod`; unwritten, it is a fault (R24, R170). -/
def readTod (s : State) : Outcome :=
  if s.todv then .next (s.logRead (.tod s.todPort)) else .fault .unwrittenTod

/-- The host reads `res`; unwritten, it is a fault (R26, R170). -/
def readRes (s : State) : Outcome :=
  if s.resv then .next (s.logRead (.res s.resPort)) else .fault .unwrittenRes

/-- The machine's next move (R17, R20): the first event, where it can happen now; CORE's own step where nothing comes from
outside, and where the first event must wait until CORE is idle (R195, R196). -/
def nextMove (s : State) : Outcome :=
  match s.events with
  | [] => sequencerStep s
  | .command w :: rest => if s.seq = .idle then acceptWord w (s.setEvents rest) else sequencerStep s
  | .core :: rest => sequencerStep (s.setEvents rest)
  | .reset :: rest => .next (resetCore (s.setEvents rest))
  | .readStatus :: rest => readStatus (s.setEvents rest)
  | .readTod :: rest => readTod (s.setEvents rest)
  | .readRes :: rest => readRes (s.setEvents rest)
  | .rtcSet r b :: rest => .next (rtcSet r b (s.setEvents rest))
  | .rtcTick t :: rest => .next (rtcTick t (s.setEvents rest))
  | .hostBus p :: rest => if s.seq = .idle then .next (hostUsesBus p (s.setEvents rest)) else sequencerStep s
  | .stall :: rest => .next (s.setEvents rest |>.setEnv { s.env with stalled := true })
  | .resume :: rest => .next (s.setEvents rest |>.setEnv { s.env with stalled := false })

end Sys2Proof.Machine
end

