-- ==== Sys2Proof/Machine/Step.lean ====
section
/-! DEFINITION. One step of the machine (10_state rule R20). -/

namespace Sys2Proof.Machine

/-- One atomic step: a move of the host or of the environment, or CORE's own. -/
def step (s : State) : Host.Outcome State Fault Refusal := nextMove s

/-- The instruction whose bits are w waits on the command channel and CORE is idle, so the next step takes it (R31). A
command is one 32-bit word; there is no instruction memory (R69; log entry 1). -/
def State.withFetchWord (s : State) (nbits w : Nat) : State :=
  { s with seq := .idle, events := .command (BitVec.ofNat 32 (w % 2 ^ nbits)) :: s.events }

end Sys2Proof.Machine
end

