-- ==== Sys2Proof/Machine/Assembler.lean ====
section
/-! DEFINITION. The text of a program in the assembler's syntax (30_encoding rule R89): one command a line, `;` starts a
comment, numbers are decimal or `0x` hexadecimal. A line is a list of characters. What R89 leaves to the reader (blanks,
the case of letters) is log entry 22. -/

namespace Sys2Proof

/-- The text before the comment (R89, "`;` starts a comment"). -/
def beforeComment (cs : List Char) : List Char := cs.takeWhile (· != ';')

/-- A word that was being read joins the words after it, if it has a letter. -/
def joinWord (cur : List Char) (rest : List (List Char)) : List (List Char) :=
  if cur = [] then rest else cur :: rest

/-- The words of a line, cut at blanks, each comma a word of its own; cur is the word being read. -/
def lineWords (cur : List Char) : List Char → List (List Char)
  | [] => joinWord cur []
  | c :: cs =>
    if c = ' ' ∨ c = '\t' then joinWord cur (lineWords [] cs)
    else if c = ',' then joinWord cur ([','] :: lineWords [] cs)
    else lineWords (cur ++ [c]) cs

/-- The value of a digit: 0 to 9, and a to f of either case. -/
def digitValue (c : Char) : Option Nat :=
  let n := c.toNat
  if 48 ≤ n ∧ n ≤ 57 then some (n - 48)
  else if 97 ≤ n ∧ n ≤ 102 then some (n - 87)
  else if 65 ≤ n ∧ n ≤ 70 then some (n - 55)
  else none

/-- The number whose further digits in a base are given, acc being the number so far. -/
def digitsFrom (base acc : Nat) : List Char → Option Nat
  | [] => some acc
  | c :: cs =>
    match digitValue c with
    | none => none
    | some d => if d < base then digitsFrom base (acc * base + d) cs else none

/-- A number with at least one digit, in a base. -/
def numberIn (base : Nat) (cs : List Char) : Option Nat :=
  if cs = [] then none else digitsFrom base 0 cs

/-- A number as R89 writes it: decimal, or hexadecimal after `0x`. -/
def readNumber (cs : List Char) : Option Nat :=
  match cs with
  | '0' :: 'x' :: ds => numberIn 16 ds
  | ds => numberIn 10 ds

/-- What a line of text is. -/
inductive LineText where
  /-- Nothing but blanks and a comment. -/
  | blank
  | line (l : AsmLine)
  /-- No line of R89's table. -/
  | unknown
  deriving DecidableEq, Repr

/-- A line with the value read for its operand, or no line where the operand is no number. -/
def withNumber (n : Option Nat) (f : Nat → AsmLine) : LineText :=
  match n with
  | some n => .line (f n)
  | none => .unknown

/-- A SETTIME line with the values read for its operands. -/
def withTime (h m s : Option Nat) : LineText :=
  match h, m, s with
  | some h, some m, some s => .line (.settime h m s)
  | _, _, _ => .unknown

/-- The line that the words make (R89's table). -/
def lineOfWords (ws : List (List Char)) : LineText :=
  match ws with
  | [] => .blank
  | [w] => if w = ['G', 'E', 'T', 'T', 'I', 'M', 'E'] then .line .gettime else .unknown
  | [w, n] =>
    if w = ['E', 'N', 'C'] then withNumber (readNumber n) .enc
    else if w = ['D', 'E', 'C'] then withNumber (readNumber n) .dec
    else if w = ['.', 'w', 'o', 'r', 'd'] then withNumber (readNumber n) .word
    else .unknown
  | [w, h, c1, m, c2, s] =>
    if w = ['S', 'E', 'T', 'T', 'I', 'M', 'E'] ∧ c1 = [','] ∧ c2 = [','] then
      withTime (readNumber h) (readNumber m) (readNumber s)
    else .unknown
  | _ => .unknown

/-- A line of text (R89). -/
def readLine (cs : List Char) : LineText := lineOfWords (lineWords [] (beforeComment cs))

/-- The words of a program's text, line by line; none where the assembler refuses a line (R89). -/
def assembleProgram : List (List Char) → Option (List Word)
  | [] => some []
  | cs :: rest =>
    match readLine cs with
    | .blank => assembleProgram rest
    | .unknown => none
    | .line l =>
      match l.assemble, assembleProgram rest with
      | some w, some ws => some (w :: ws)
      | _, _ => none

end Sys2Proof
end

