-- ==== Sys2Proof/Safety.lean ====
section
/-! DEFINITION. What claims speak of: CORE's registers alone (10_state rule R21), the end of a run and its observation
(70_reset_and_hazards rule R201), a safe run (60_exceptions rules R170, R171), and the invariants of the machine. -/

namespace Sys2Proof.Machine

/-- CORE's registers and nothing of the environment or the host (R21). -/
structure CoreView where
  seq : SeqState
  todS : Byte
  todM : Byte
  todH : Byte
  todv : Bool
  res : Byte
  resv : Bool
  code : Code
  detail : BitVec 3
  opdS : Byte
  opdM : Byte
  opdH : Byte
  rxn : BitVec 3
  rxi : BitVec 3
  rxb0 : Byte
  rxb1 : Byte
  rxb2 : Byte
  deriving DecidableEq, Repr

/-- CORE's registers in a state (R21). -/
def State.coreView (s : State) : CoreView :=
  { seq := s.seq, todS := s.todS, todM := s.todM, todH := s.todH, todv := s.todv, res := s.res, resv := s.resv,
    code := s.code, detail := s.detail, opdS := s.opdS, opdM := s.opdM, opdH := s.opdH, rxn := s.rxn, rxi := s.rxi,
    rxb0 := s.rxb0, rxb1 := s.rxb1, rxb2 := s.rxb2 }

/-- The event gives a command word. -/
def Event.isCommand : Event → Bool
  | .command _ => true
  | .core => false
  | .reset => false
  | .readStatus => false
  | .readTod => false
  | .readRes => false
  | .rtcSet _ _ => false
  | .rtcTick _ => false
  | .hostBus _ => false
  | .stall => false
  | .resume => false

/-- A run has ended: CORE has taken the last word and is idle (R201). -/
def State.ended (s : State) : Bool := s.seq == .idle && s.events.all fun e => !e.isCommand

/-- What a run shows: CORE's final state and the trace of bus calls in order (R66, R201). -/
structure Observation where
  core : CoreView
  trace : List BusCall
  deriving DecidableEq, Repr

/-- The observation of a state (R201). -/
def State.observe (s : State) : Observation := { core := s.coreView, trace := s.calls.reverse }

/-- n steps from s reach a state: none faults, none is refused (R170, R171, R201). -/
def SafeFor (n : Nat) (s : State) : Prop := ∃ t : State, Host.Core.run Sys2Proof.core n s = .next t

/-- The first event lets CORE take its own step, after which the events es remain: none is left, CORE's turn is listed,
or the event must wait until CORE is idle (R195, R196). -/
def CoreTurn (s : State) (es : List Event) : Prop :=
  (s.events = [] ∧ es = []) ∨ s.events = .core :: es ∨
    (s.seq ≠ .idle ∧ s.events = es ∧ ((∃ w rest, es = .command w :: rest) ∨ ∃ p rest, es = .hostBus p :: rest))

/-- The state is one of the read sequence (R22). -/
def SeqState.isRead : SeqState → Bool
  | .rdBegin => true
  | .rdPtr => true
  | .rdEnd => true
  | .rdReq => true
  | .rdRecv => true
  | .rdFin => true
  | .idle => false
  | .wrBegin => false
  | .wrPtr => false
  | .wrS => false
  | .wrM => false
  | .wrH => false
  | .wrEnd => false

/-- The state is one of the write sequence (R22). -/
def SeqState.isWrite : SeqState → Bool
  | .wrBegin => true
  | .wrPtr => true
  | .wrS => true
  | .wrM => true
  | .wrH => true
  | .wrEnd => true
  | .idle => false
  | .rdBegin => false
  | .rdPtr => false
  | .rdEnd => false
  | .rdReq => false
  | .rdRecv => false
  | .rdFin => false

/-- The form of the illegal words (R86): `OP` is 0x0 or 0x5 to 0xF, or `OP` is 0x1 to 0x4 and a must-be-0 bit of the command
(R82: bits 27:8 of ENC and DEC, 27:0 of GETTIME, 27:24 of SETTIME) is set. -/
def IllegalForm (w : Word) : Prop :=
  w.toNat / 2 ^ 28 = 0 ∨ 5 ≤ w.toNat / 2 ^ 28 ∨
  (w.toNat / 2 ^ 28 = 1 ∧ w.toNat / 2 ^ 8 % 2 ^ 20 ≠ 0) ∨
  (w.toNat / 2 ^ 28 = 2 ∧ w.toNat / 2 ^ 8 % 2 ^ 20 ≠ 0) ∨
  (w.toNat / 2 ^ 28 = 3 ∧ w.toNat % 2 ^ 28 ≠ 0) ∨
  (w.toNat / 2 ^ 28 = 4 ∧ w.toNat / 2 ^ 24 % 2 ^ 4 ≠ 0)

/-- A triple is a time of day (R10). -/
def IsTimeOfDay (h m s : Byte) : Prop := h.toNat ≤ Config.maxH ∧ m.toNat ≤ Config.maxM ∧ s.toNat ≤ Config.maxS

/-! ### The invariants -/

/-- "Whenever TODV = 1", TOD is a time of day (R23). -/
def TodInRange (s : State) : Prop := s.todv = true → IsTimeOfDay s.todH s.todM s.todS

/-- RES, once written, is at most 0x99: a packed BCD byte or a number to 99 (R103, R107). -/
def ResInRange (s : State) : Prop := s.resv = true → s.res.toNat ≤ 0x99

/-- CODE is PENDING exactly while CORE is busy (R28, R30). -/
def PendingWhileBusy (s : State) : Prop := s.code = .pending ↔ s.seq ≠ .idle

/-- DETAIL is one that its code allows (R29). -/
def DetailFits (s : State) : Prop :=
  match s.code with
  | .none => s.detail = 0#3
  | .ok => s.detail = 0#3
  | .invalidArgument => s.detail ≠ 0#3
  | .malformedRegisterData => s.detail ≠ 0#3
  | .transportFailure => s.detail = detailNack ∨ s.detail = detailShort
  | .illegalCommand => s.detail = 0#3
  | .pending => s.detail = 0#3

/-- A read sequence runs only in 24-hour mode (R120, R129). -/
def HourModeFits (s : State) : Prop := s.seq.isRead = true → s.hourMode = .h24

/-- RD_RECV is entered only with `RXI < RXN` (R125), and RD_FIN when all are received. -/
def ReceiveProgress (s : State) : Prop :=
  (s.seq = .rdRecv → s.rxi.toNat < s.rxn.toNat) ∧ (s.seq = .rdFin → s.rxi = s.rxn)

/-- During a write sequence OPD holds the encoded fields of some time of day (R140). -/
def OpdEncodesTime (s : State) : Prop :=
  s.seq.isWrite = true → ∃ h m sec : Byte,
    IsTimeOfDay h m sec ∧ s.opdH = enc8 h ∧ s.opdM = enc8 m ∧ s.opdS = enc8 sec

/-- The RTC's pointer and the collaborator's transaction, where a sequence has set them (R52, R53). -/
def RtcFollows (s : State) : Prop :=
  match s.seq with
  | .idle => True
  | .rdBegin => True
  | .rdPtr => s.rtc.writeOpen = true ∧ s.rtc.firstByte = true
  | .rdEnd => s.rtc.writeOpen = true ∧ s.rtc.firstByte = false ∧ s.rtc.ptr.toNat = 0
  | .rdReq => s.rtc.writeOpen = false ∧ s.rtc.ptr.toNat = 0
  | .rdRecv => s.rtc.ptr.toNat = s.rxn.toNat ∧ s.rtc.rxq.length + s.rxi.toNat = s.rxn.toNat
  | .rdFin => s.rtc.ptr.toNat = s.rxn.toNat ∧ s.rtc.rxq = []
  | .wrBegin => True
  | .wrPtr => s.rtc.writeOpen = true ∧ s.rtc.firstByte = true
  | .wrS => s.rtc.writeOpen = true ∧ s.rtc.firstByte = false ∧ s.rtc.ptr.toNat = 0
  | .wrM => s.rtc.writeOpen = true ∧ s.rtc.firstByte = false ∧ s.rtc.ptr.toNat = 1
  | .wrH => s.rtc.writeOpen = true ∧ s.rtc.firstByte = false ∧ s.rtc.ptr.toNat = 2
  | .wrEnd => s.rtc.writeOpen = true ∧ s.rtc.firstByte = false ∧ s.rtc.ptr.toNat = Config.writeCount

/-- r0, r1, r2 are the first three of the bytes received, as far as that many were (R125). -/
def KeepsFirstThree (r0 r1 r2 : Byte) (bs : List Byte) : Prop :=
  (∀ b, bs[0]? = some b → r0 = b) ∧ (∀ b, bs[1]? = some b → r1 = b) ∧ (∀ b, bs[2]? = some b → r2 = b)

/-- The calls of the pointer write that opens both sequences, newest first (R121, R122, R141, R142). -/
def pointerWrite : List BusCall := [.send Config.ptrStart, .begin Config.devAddr]

/-- The newest calls of the trace are those of the sequence so far, in the order of the rules (R60, R66). -/
def CallsFollow (s : State) : Prop :=
  match s.seq with
  | .idle => True
  | .rdBegin => True
  | .rdPtr => ∃ old, s.calls = .begin Config.devAddr :: old
  | .rdEnd => ∃ old, s.calls = pointerWrite ++ old
  | .rdReq => ∃ old, s.calls = .finish true :: (pointerWrite ++ old)
  | .rdRecv => ∃ bs old, bs.length = s.rxi.toNat ∧ KeepsFirstThree s.rxb0 s.rxb1 s.rxb2 bs ∧
      s.calls = (bs.map BusCall.receive).reverse ++ (.request Config.devAddr Config.readCount s.rxn.toNat ::
        .finish true :: (pointerWrite ++ old))
  | .rdFin => ∃ bs old, bs.length = s.rxi.toNat ∧ KeepsFirstThree s.rxb0 s.rxb1 s.rxb2 bs ∧
      s.calls = (bs.map BusCall.receive).reverse ++ (.request Config.devAddr Config.readCount s.rxn.toNat ::
        .finish true :: (pointerWrite ++ old))
  | .wrBegin => True
  | .wrPtr => ∃ old, s.calls = .begin Config.devAddr :: old
  | .wrS => ∃ old, s.calls = pointerWrite ++ old
  | .wrM => ∃ old, s.calls = .send s.opdS :: (pointerWrite ++ old)
  | .wrH => ∃ old, s.calls = .send s.opdM :: .send s.opdS :: (pointerWrite ++ old)
  | .wrEnd => ∃ old, s.calls = .send s.opdH :: .send s.opdM :: .send s.opdS :: (pointerWrite ++ old)

/-- The RTC's register space is in canonical form. -/
def MemoryCanonical (s : State) : Prop := Memory.wf s.rtc.mem = true

/-- The invariant of the machine. -/
structure CoreInv (s : State) : Prop where
  tod : TodInRange s
  res : ResInRange s
  pending : PendingWhileBusy s
  detail : DetailFits s
  hourMode : HourModeFits s
  receive : ReceiveProgress s
  opd : OpdEncodesTime s
  rtc : RtcFollows s
  calls : CallsFollow s
  mem : MemoryCanonical s

end Sys2Proof.Machine
end

