-- ==== Sys2Proof/Certificates/Slice0/Obligations.lean ====
section
/-! DEFINITION. The statements about the machine, for the provers. Each docstring names the rules of spec/ it formalises.
`CoreTurn s es` says that the next move is CORE's own and that the events es remain after it. -/

open Sys2Proof Sys2Proof.Machine

/-! ### The BCD Codec -/

/-- ENC (R103, R104): its word, its acceptance when idle, RES and RESV on OK, INVALID_ARGUMENT 0b001 above 99, and
nothing else changes. -/
def Obligations.EncEncodesOrRejects : Prop :=
  ∀ (v : Byte) (s : State), s.seq = .idle →
    decode ((0x1#4 ++ 0#20 : BitVec 24) ++ v) = .instr (.enc v) ∧
    (v.toNat ≤ 99 → exec (.enc v) s = .next
      { s with seq := .idle, res := BitVec.ofNat 8 (v.toNat / 10 * 16 + v.toNat % 10), resv := true,
               code := .ok, detail := 0#3 }) ∧
    (99 < v.toNat → exec (.enc v) s = .next { s with seq := .idle, code := .invalidArgument, detail := 0b001#3 })

/-- DEC (R107, R108): its word, its acceptance when idle, RES and RESV on OK, MALFORMED_REGISTER_DATA with the mask of the
nibbles above 9, and nothing else changes. -/
def Obligations.DecDecodesOrRejects : Prop :=
  ∀ (b : Byte) (s : State), s.seq = .idle →
    decode ((0x2#4 ++ 0#20 : BitVec 24) ++ b) = .instr (.dec b) ∧
    (b.toNat / 16 ≤ 9 ∧ b.toNat % 16 ≤ 9 → exec (.dec b) s = .next
      { s with seq := .idle, res := BitVec.ofNat 8 (b.toNat / 16 * 10 + b.toNat % 16), resv := true,
               code := .ok, detail := 0#3 }) ∧
    (¬ (b.toNat / 16 ≤ 9 ∧ b.toNat % 16 ≤ 9) → exec (.dec b) s = .next
      { s with seq := .idle, code := .malformedRegisterData,
               detail := BitVec.ofNat 3 ((if 9 < b.toNat / 16 then 2 else 0) + (if 9 < b.toNat % 16 then 1 else 0)) })

/-- The laws of the codec's functions (R101, R106, R110): both round trips, the ranges, and the bits of an encoded byte. -/
def Obligations.CodecFunctionsObeyTheirLaws : Prop :=
  (∀ v : Byte, v.toNat ≤ 99 →
    dec8 (enc8 v) = v ∧ bcdOk (enc8 v) = true ∧ (enc8 v).toNat ≤ 0x99 ∧
    ((enc8 v).getLsbD 7 = true ↔ 80 ≤ v.toNat) ∧ (v.toNat ≤ 39 → (enc8 v).extractLsb' 6 2 = 0b00#2)) ∧
  (∀ b : Byte, (dec8 b).toNat = b.toNat / 16 * 10 + b.toNat % 16 ∧ (dec8 b).toNat ≤ 165 ∧
    (bcdOk b = true → enc8 (dec8 b) = b ∧ (dec8 b).toNat ≤ 99)) ∧
  (∀ v w : Byte, v.toNat ≤ 99 → w.toNat ≤ 99 → enc8 v = enc8 w → v = w)

/-- ENC v and then DEC of the RES it leaves completes with OK and `RES = v`, for v ≤ 99 (R110). -/
def Obligations.EncThenDecRestoresTheValue : Prop :=
  ∀ (v : Byte) (s : State), s.seq = .idle → v.toNat ≤ 99 →
    ∃ t u : State, exec (.enc v) s = .next t ∧ exec (.dec t.res) t = .next u ∧
      u.res = v ∧ u.resv = true ∧ u.code = .ok ∧ u.seq = .idle

/-! ### Encoding -/

/-- Decoding the word of any command gives the command back, operands and all (R84, R85). -/
def Obligations.DecodeUndoesEncode : Prop := ∀ i : Instr, decode (encode i) = .instr i

/-- Every word that decodes to a command is that command's word: no bit is dropped (R82, R84, R85). -/
def Obligations.EncodeUndoesDecode : Prop := ∀ (w : Word) (i : Instr), decode w = .instr i → encode i = w

/-- The opcode map (R84): its rows, that a word selects a command exactly when its row's masked bits match, and that no
word selects two rows. -/
def Obligations.DecodeFollowsTheOpcodeMap : Prop :=
  opRows.map (fun r => (r.mnemonic, r.value, r.mask)) =
    [("ENC", 0x10000000#32, 0xFFFFFF00#32), ("DEC", 0x20000000#32, 0xFFFFFF00#32),
     ("GETTIME", 0x30000000#32, 0xFFFFFFFF#32), ("SETTIME", 0x40000000#32, 0xFF000000#32)] ∧
  (∀ (w : Word) (i : Instr), decode w = .instr i → w &&& i.row.mask = i.row.value) ∧
  (∀ (w : Word) (r : OpRow), r ∈ opRows → w &&& r.mask = r.value → ∃ i : Instr, decode w = .instr i ∧ i.row = r) ∧
  (∀ (w : Word) (r r' : OpRow), r ∈ opRows → r' ∈ opRows →
    w &&& r.mask = r.value → w &&& r'.mask = r'.value → r = r')

/-- The words `decode` maps to ILLEGAL are those of rule R86: OP 0x0 or 0x5 to 0xF, or OP 0x1 to 0x4 with a must-be-0 bit
of rule R82 set. -/
def Obligations.IllegalWordsAreTheReservedOnes : Prop :=
  ∀ w : Word, (∃ why, decode w = .illegal why) ↔ IllegalForm w

/-- The assembler (R89): a line whose operands are in 0..255 gets the command's word, any other is refused. -/
def Obligations.AssemblerGivesTheCommandWords : Prop :=
  (∀ v : Nat, (AsmLine.enc v).assemble = if v ≤ 255 then some (encode (.enc (BitVec.ofNat 8 v))) else none) ∧
  (∀ b : Nat, (AsmLine.dec b).assemble = if b ≤ 255 then some (encode (.dec (BitVec.ofNat 8 b))) else none) ∧
  AsmLine.gettime.assemble = some (encode .gettime) ∧
  (∀ h m s : Nat, (AsmLine.settime h m s).assemble =
    if h ≤ 255 ∧ m ≤ 255 ∧ s ≤ 255 then
      some (encode (.settime (BitVec.ofNat 8 h) (BitVec.ofNat 8 m) (BitVec.ofNat 8 s))) else none) ∧
  (∀ w : Word, (AsmLine.word w.toNat).assemble = some w)

/-- Lines of the spec's programs (95_test_vectors P1, P2, P5) assemble to the words written beside them, comments and
hexadecimal operands read as R89 says; an operand of 256 is refused. -/
def Obligations.ProgramTextAssembles : Prop :=
  assembleProgram
    ["        ENC 59          ; 0x1000003B".toList, "        DEC 0x59        ; 0x20000059".toList,
     "        ; environment: tick 2".toList, "        SETTIME 6, 6, 30   ; 0x4006061E".toList,
     "        GETTIME            ; 0x30000000".toList, "        .word 0x30000001   ; illegal".toList]
    = some [0x1000003B#32, 0x20000059#32, 0x4006061E#32, 0x30000000#32, 0x30000001#32] ∧
  assembleProgram ["ENC 256".toList] = none

/-- Numbers are decimal, or hexadecimal after `0x` (R89): the digits of every number, in either base, read as it. The spec
writes its hexadecimal digits as capitals; that small letters are read too is the model's choice (log entry 22). -/
def Obligations.NumbersReadAsWritten : Prop :=
  ∀ n : Nat, readNumber (Nat.toDigits 10 n) = some n ∧
    readNumber ('0' :: 'x' :: (Nat.toDigits 16 n).map Char.toUpper) = some n ∧
    readNumber ('0' :: 'x' :: Nat.toDigits 16 n) = some n

/-- Words of the spec's vectors decode as it says (95_test_vectors: 0x20000059 of L2.3, 0x4006061E of L2.5, the others of
L2.1). -/
def Obligations.SpecWordsDecode : Prop :=
  decode 0x100000FF#32 = .instr (.enc 255#8) ∧ decode 0x20000059#32 = .instr (.dec 0x59#8) ∧
  decode 0x30000000#32 = .instr .gettime ∧ decode 0x4006061E#32 = .instr (.settime 6#8 6#8 30#8) ∧
  decode 0x00000000#32 = .illegal .reservedOp ∧ decode 0x10000100#32 = .illegal .mustBeZeroBit ∧
  decode 0x30000001#32 = .illegal .mustBeZeroBit ∧ decode 0x41000000#32 = .illegal .mustBeZeroBit ∧
  decode 0x50000000#32 = .illegal .reservedOp

/-! ### Accepting a word -/

/-- When CORE is idle and a word waits that decodes to a command, the step is exec of that command, with the word taken off
the channel (R20 (a), R31, R85). -/
def Obligations.StepRunsTheDecodedCommand : Prop :=
  ∀ (s : State) (w : Word) (rest : List Event) (i : Instr), s.seq = .idle → s.events = .command w :: rest →
    decode w = .instr i → step s = exec i { s with events := rest }

/-- Accepting an illegal word (R86: `OP` 0x0 or 0x5 to 0xF, or a must-be-0 bit set) when CORE is idle is one step with
ILLEGAL_COMMAND, and nothing else changes. -/
def Obligations.IllegalWordChangesOnlyStatus : Prop :=
  ∀ (s : State) (w : Word) (rest : List Event), s.seq = .idle → s.events = .command w :: rest → IllegalForm w →
    step s = .next { s with events := rest, seq := .idle, code := .illegalCommand, detail := 0#3 }

/-- While CORE is busy the channel does not take the word: the step is CORE's own and the word still waits (R195). -/
def Obligations.BusyCoreHoldsTheWord : Prop :=
  ∀ (s : State) (w : Word) (rest : List Event), s.seq ≠ .idle → s.events = .command w :: rest →
    step s = sequencerStep s ∧ ∀ t : State, step s = .next t → t.events = .command w :: rest

/-- An idle CORE without a word waits: nothing changes (the model's choice, log entry 14; R31). -/
def Obligations.IdleCoreWaits : Prop :=
  (∀ s : State, s.seq = .idle → s.events = [] → step s = .next s) ∧
  (∀ (s : State) (rest : List Event), s.seq = .idle → s.events = .core :: rest → step s = .next { s with events := rest })

/-- What an accepted command leaves unchanged (R32): the environment and its memory, the host's side, the received bytes
and TOD always; RES and RESV unless it is ENC or DEC; OPD unless it is SETTIME. -/
def Obligations.CommandsKeepEverythingElse : Prop :=
  ∀ (i : Instr) (s t : State), exec i s = .next t →
    t.rtc = s.rtc ∧ t.env = s.env ∧ t.events = s.events ∧ t.calls = s.calls ∧ t.seen = s.seen ∧
    t.hourMode = s.hourMode ∧
    (∀ a : Nat, Memory.read t.rtc.mem a = Memory.read s.rtc.mem a) ∧
    t.todS = s.todS ∧ t.todM = s.todM ∧ t.todH = s.todH ∧ t.todv = s.todv ∧
    t.rxn = s.rxn ∧ t.rxi = s.rxi ∧ t.rxb0 = s.rxb0 ∧ t.rxb1 = s.rxb1 ∧ t.rxb2 = s.rxb2 ∧
    ((∀ v, i ≠ .enc v) → (∀ b, i ≠ .dec b) → t.res = s.res ∧ t.resv = s.resv) ∧
    ((∀ h m sec, i ≠ .settime h m sec) → t.opdS = s.opdS ∧ t.opdM = s.opdM ∧ t.opdH = s.opdH)

/-! ### GETTIME -/

/-- GETTIME's acceptance in 24-hour mode (R120): PENDING, DETAIL 0, `SEQ <- RD_BEGIN`, and nothing else. -/
def Obligations.GettimeBeginsTheReadSequence : Prop :=
  ∀ s : State, s.seq = .idle → s.hourMode = .h24 →
    exec .gettime s = .next { s with code := .pending, detail := 0#3, seq := .rdBegin }

/-- GETTIME in 12-hour mode is refused at acceptance (R129), and this is the only refusal of any step in a state that meets
the invariant (R171). -/
def Obligations.OnlyGettimeIn12HourModeIsRefused : Prop :=
  (∀ s : State, s.seq = .idle → s.hourMode = .h12 → exec .gettime s = .refused .hourModeH12) ∧
  (∀ (s : State) (r : Refusal), CoreInv s → step s = .refused r →
    r = .hourModeH12 ∧ s.hourMode = .h12 ∧ s.seq = .idle ∧ ∃ rest, s.events = .command 0x30000000#32 :: rest)

/-- RD_BEGIN and RD_PTR (R121, R122): BusBegin(0x68), then BusSend(0x00). The pointer is set by the first byte. -/
def Obligations.ReadSequenceOpensWithThePointerWrite : Prop :=
  ∀ (s : State) (es : List Event), CoreTurn s es → s.env.stalled = false →
    (s.seq = .rdBegin → step s = .next
      { s with events := es, seq := .rdPtr, calls := .begin 0x68#7 :: s.calls,
               rtc := { s.rtc with writeOpen := true, firstByte := true } }) ∧
    (s.seq = .rdPtr → s.rtc.firstByte = true → step s = .next
      { s with events := es, seq := .rdEnd, calls := .send 0x00#8 :: s.calls,
               rtc := { s.rtc with ptr := 0x00#8, firstByte := false } })

/-- RD_END (R123): a pointer write that is not acknowledged ends the command with TRANSPORT_FAILURE 0b001 and no read. -/
def Obligations.UnacknowledgedPointerWriteEndsGettime : Prop :=
  ∀ (s : State) (es : List Event), CoreTurn s es → s.env.stalled = false → s.seq = .rdEnd →
    ∃ t : State, step s = .next t ∧ t.events = es ∧ t.calls = .finish (answerAck s) :: s.calls ∧
      t.rtc.mem = s.rtc.mem ∧
      (answerAck s = true → t.coreView = { s.coreView with seq := .rdReq } ∧ t.rtc.ptr = s.rtc.ptr) ∧
      (answerAck s = false →
        t.coreView = { s.coreView with seq := .idle, code := .transportFailure, detail := 0b001#3 })

/-- RD_REQ (R124): the count goes to RXN, RXI is 0, and RD_FIN follows at once when it is 0; above 7 it is a fault. -/
def Obligations.ReadRequestTakesTheCount : Prop :=
  ∀ (s : State) (es : List Event), CoreTurn s es → s.env.stalled = false → s.seq = .rdReq →
    (7 < answerCount 7 s → step s = .fault .collaboratorCount) ∧
    (answerCount 7 s ≤ 7 → ∃ t : State, step s = .next t ∧ t.events = es ∧
      t.calls = .request 0x68#7 7 (answerCount 7 s) :: s.calls ∧ t.rtc.mem = s.rtc.mem ∧
      t.coreView = { s.coreView with
        rxn := BitVec.ofNat 3 (answerCount 7 s), rxi := 0#3,
        seq := if answerCount 7 s = 0 then .rdFin else .rdRecv } ∧ t.rxn.toNat = answerCount 7 s)

/-- RD_RECV (R125, R128): byte RXI goes to RXB0, RXB1 or RXB2, or nowhere; RXI counts it; RD_FIN follows the last. -/
def Obligations.ReceiveKeepsTheFirstThreeBytes : Prop :=
  ∀ (s : State) (es : List Event), CoreTurn s es → s.env.stalled = false → s.seq = .rdRecv →
    s.rxi.toNat < s.rxn.toNat →
    ∃ t : State, step s = .next t ∧ t.events = es ∧ t.calls = .receive (answerByte s) :: s.calls ∧
      t.rtc.mem = s.rtc.mem ∧ t.rxi.toNat = s.rxi.toNat + 1 ∧
      t.coreView = { s.coreView with
        rxi := s.rxi + 1#3,
        rxb0 := if s.rxi.toNat = 0 then answerByte s else s.rxb0,
        rxb1 := if s.rxi.toNat = 1 then answerByte s else s.rxb1,
        rxb2 := if s.rxi.toNat = 2 then answerByte s else s.rxb2,
        seq := if s.rxi.toNat + 1 = s.rxn.toNat then .rdFin else .rdRecv }

/-- RD_FIN (R126, R127, R130), whether or not the collaborator answers: a short transfer is TRANSPORT_FAILURE 0b010; a full
one is decoded with bit 7 of the seconds masked off, and each field that is not BCD or out of range is reported; TOD is
written all at once or not at all. -/
def Obligations.ReadCompletesByValidation : Prop :=
  ∀ (s : State) (es : List Event), CoreTurn s es → s.seq = .rdFin → s.hourMode = .h24 →
    (s.rxn.toNat < 7 → step s = .next
      { s with events := es, seq := .idle, code := .transportFailure, detail := 0b010#3 }) ∧
    (s.rxn.toNat = 7 → ∀ (rs : Byte) (es' em eh : Bool), rs = s.rxb0 &&& 0x7F#8 →
      es' = (!bcdOk rs || decide (59 < (dec8 rs).toNat)) →
      em = (!bcdOk s.rxb1 || decide (59 < (dec8 s.rxb1).toNat)) →
      eh = (!bcdOk s.rxb2 || decide (23 < (dec8 s.rxb2).toNat)) →
      step s = .next
        (if es' || em || eh then
          { s with events := es, seq := .idle, code := .malformedRegisterData,
                   detail := BitVec.ofNat 3 (4 * eh.toNat + 2 * em.toNat + es'.toNat) }
        else
          { s with events := es, seq := .idle, code := .ok, detail := 0#3, todv := true,
                   todS := dec8 rs, todM := dec8 s.rxb1, todH := dec8 s.rxb2 }))

/-- The clock-halt bit never affects the result of a read: raw seconds bytes r and r | 0x80 give the same outcome
(R131 (c)). -/
def Obligations.ClockHaltBitDoesNotMatter : Prop :=
  ∀ (s : State) (r : Byte), s.seq = .rdFin → s.hourMode = .h24 →
    ∃ t u : State, sequencerStep { s with rxb0 := r } = .next t ∧ sequencerStep { s with rxb0 := r ||| 0x80#8 } = .next u ∧
      { t with rxb0 := r } = { u with rxb0 := r }

/-- What a read delivers does not depend on TOD's old value, nor on any other register an earlier command left (R131 (b)):
in RD_FIN, two states with the same received bytes and count give the same code, DETAIL and, on OK, the same TOD. -/
def Obligations.ReadResultIgnoresOldRegisters : Prop :=
  ∀ s s' t t' : State, s.seq = .rdFin → s'.seq = .rdFin →
    s.rxn = s'.rxn → s.rxb0 = s'.rxb0 → s.rxb1 = s'.rxb1 → s.rxb2 = s'.rxb2 →
    sequencerStep s = .next t → sequencerStep s' = .next t' →
    t.code = t'.code ∧ t.detail = t'.detail ∧ t.seq = t'.seq ∧
    (t.code = .ok → t.todS = t'.todS ∧ t.todM = t'.todM ∧ t.todH = t'.todH ∧ t.todv = t'.todv)

/-- GETTIME from acceptance to its end when the write is acknowledged and all 7 bytes come (R120 to R130, R202): thirteen
steps, eleven calls in order, the pointer left at register 7 (R131 (d)), the RTC's registers untouched, and the outcome of
the bytes received for registers 0 to 2. -/
def Obligations.FullReadTakesThirteenSteps : Prop :=
  ∀ (s : State) (b0 b1 b2 b3 b4 b5 b6 : Byte) (acks : List Bool) (counts : List Nat) (bytes : List Byte),
    s.seq = .idle → s.hourMode = .h24 → s.env.stalled = false → s.events = [.command 0x30000000#32] →
    s.env.acks = true :: acks → s.env.counts = 7 :: counts →
    s.env.bytes = b0 :: b1 :: b2 :: b3 :: b4 :: b5 :: b6 :: bytes →
    ∃ t : State, Host.Core.run Sys2Proof.core 13 s = .next t ∧ t.ended = true ∧
      t.observe.trace = s.observe.trace ++
        [.begin 0x68#7, .send 0x00#8, .finish true, .request 0x68#7 7 7, .receive b0, .receive b1, .receive b2,
         .receive b3, .receive b4, .receive b5, .receive b6] ∧
      t.rtc.ptr = 0x07#8 ∧ t.rtc.mem = s.rtc.mem ∧ t.res = s.res ∧ t.resv = s.resv ∧
      (IsTimeOfDay (dec8 b2) (dec8 b1) (dec8 (b0 &&& 0x7F#8)) ∧
        bcdOk b2 = true ∧ bcdOk b1 = true ∧ bcdOk (b0 &&& 0x7F#8) = true →
        t.code = .ok ∧ t.detail = 0#3 ∧ t.todv = true ∧
        t.todH = dec8 b2 ∧ t.todM = dec8 b1 ∧ t.todS = dec8 (b0 &&& 0x7F#8)) ∧
      (¬ (IsTimeOfDay (dec8 b2) (dec8 b1) (dec8 (b0 &&& 0x7F#8)) ∧
          bcdOk b2 = true ∧ bcdOk b1 = true ∧ bcdOk (b0 &&& 0x7F#8) = true) →
        t.code = .malformedRegisterData ∧ t.detail ≠ 0#3 ∧ t.todv = s.todv ∧
        t.todH = s.todH ∧ t.todM = s.todM ∧ t.todS = s.todS)

/-- GETTIME when the read is short (R124 to R126, R202): 6 + n steps, exactly n receives, TRANSPORT_FAILURE 0b010, and TOD
and RES keep their values. -/
def Obligations.ShortReadTakesSixStepsAndItsBytes : Prop :=
  ∀ (s : State) (n : Nat) (acks : List Bool) (counts : List Nat),
    s.seq = .idle → s.hourMode = .h24 → s.env.stalled = false → s.events = [.command 0x30000000#32] → n < 7 →
    s.env.acks = true :: acks → s.env.counts = n :: counts →
    ∃ (t : State) (bs : List Byte), Host.Core.run Sys2Proof.core (6 + n) s = .next t ∧ t.ended = true ∧ bs.length = n ∧
      t.observe.trace = s.observe.trace ++
        ([.begin 0x68#7, .send 0x00#8, .finish true, .request 0x68#7 7 n] ++ bs.map BusCall.receive) ∧
      t.code = .transportFailure ∧ t.detail = 0b010#3 ∧ t.todv = s.todv ∧ t.todH = s.todH ∧ t.todM = s.todM ∧
      t.todS = s.todS ∧ t.res = s.res ∧ t.resv = s.resv

/-- GETTIME when the pointer write is not acknowledged (R123, R202): four steps, three calls and no BusRequest. -/
def Obligations.UnacknowledgedReadTakesFourSteps : Prop :=
  ∀ (s : State) (acks : List Bool),
    s.seq = .idle → s.hourMode = .h24 → s.env.stalled = false → s.events = [.command 0x30000000#32] →
    s.env.acks = false :: acks →
    ∃ t : State, Host.Core.run Sys2Proof.core 4 s = .next t ∧ t.ended = true ∧
      t.observe.trace = s.observe.trace ++ [.begin 0x68#7, .send 0x00#8, .finish false] ∧
      t.coreView = { s.coreView with code := .transportFailure, detail := 0b001#3 }

/-- Whatever the environment answers within its contract, listed or free, a GETTIME reaches its end in at most 13 steps
with one of its codes (R120, R123, R126, R130, R202), while the collaborator answers. -/
def Obligations.GettimeEndsForEveryEnvironment : Prop :=
  ∀ s : State, s.seq = .idle → s.hourMode = .h24 → s.env.stalled = false → s.events = [.command 0x30000000#32] →
    (∀ n ∈ s.env.counts, n ≤ 7) →
    ∃ (k : Nat) (t : State), k ≤ 13 ∧ Host.Core.run Sys2Proof.core k s = .next t ∧ t.ended = true ∧
      (t.code = .ok ∧ t.todv = true ∨ t.code = .malformedRegisterData ∨ t.code = .transportFailure)

/-! ### SETTIME -/

/-- SETTIME's acceptance (R140): its word; a field out of range is INVALID_ARGUMENT with the mask of all such fields and no
bus call; otherwise the encoded fields are latched and the write sequence begins. -/
def Obligations.SettimeChecksThenLatches : Prop :=
  ∀ (h m sec : Byte) (s : State), s.seq = .idle →
    decode ((((0x4#4 ++ 0#4 : BitVec 8) ++ h : BitVec 16) ++ m : BitVec 24) ++ sec) = .instr (.settime h m sec) ∧
    (h.toNat ≤ 23 ∧ m.toNat ≤ 59 ∧ sec.toNat ≤ 59 → exec (.settime h m sec) s = .next
      { s with opdS := enc8 sec, opdM := enc8 m, opdH := enc8 h, code := .pending, detail := 0#3, seq := .wrBegin }) ∧
    (¬ (h.toNat ≤ 23 ∧ m.toNat ≤ 59 ∧ sec.toNat ≤ 59) → exec (.settime h m sec) s = .next
      { s with seq := .idle, code := .invalidArgument,
               detail := BitVec.ofNat 3 ((if 23 < h.toNat then 4 else 0) + (if 59 < m.toNat then 2 else 0) +
                 (if 59 < sec.toNat then 1 else 0)) })

/-- WR_BEGIN and WR_PTR (R141, R142): BusBegin(0x68), then BusSend(0x00). The pointer is set by the first byte. -/
def Obligations.WriteSequenceOpensWithThePointer : Prop :=
  ∀ (s : State) (es : List Event), CoreTurn s es → s.env.stalled = false →
    (s.seq = .wrBegin → step s = .next
      { s with events := es, seq := .wrPtr, calls := .begin 0x68#7 :: s.calls,
               rtc := { s.rtc with writeOpen := true, firstByte := true } }) ∧
    (s.seq = .wrPtr → s.rtc.firstByte = true → step s = .next
      { s with events := es, seq := .wrS, calls := .send 0x00#8 :: s.calls,
               rtc := { s.rtc with ptr := 0x00#8, firstByte := false } })

/-- WR_S, WR_M, WR_H (R143, R144, R145): OPD_S, OPD_M, OPD_H are sent in that order, and no register but SEQ changes. -/
def Obligations.WriteSequenceSendsTheFields : Prop :=
  ∀ (s : State) (es : List Event), CoreTurn s es → s.env.stalled = false →
    (s.seq = .wrS → ∃ t : State, step s = .next t ∧ t.events = es ∧ t.calls = .send s.opdS :: s.calls ∧
      t.coreView = { s.coreView with seq := .wrM }) ∧
    (s.seq = .wrM → ∃ t : State, step s = .next t ∧ t.events = es ∧ t.calls = .send s.opdM :: s.calls ∧
      t.coreView = { s.coreView with seq := .wrH }) ∧
    (s.seq = .wrH → ∃ t : State, step s = .next t ∧ t.events = es ∧ t.calls = .send s.opdH :: s.calls ∧
      t.coreView = { s.coreView with seq := .wrEnd })

/-- A byte sent after the pointer lands in the register the pointer names, and the pointer advances by one; every other
register keeps its byte (R52 (b)). -/
def Obligations.SentBytesLandAtThePointer : Prop :=
  ∀ (s : State) (es : List Event), CoreTurn s es → s.env.stalled = false → MemoryCanonical s →
    s.rtc.firstByte = false → s.rtc.ptr.toNat ≤ 6 →
    ∀ b : Byte, (s.seq = .wrS ∧ b = s.opdS ∨ s.seq = .wrM ∧ b = s.opdM ∨ s.seq = .wrH ∧ b = s.opdH) →
      ∃ t : State, step s = .next t ∧ t.rtc.ptr.toNat = s.rtc.ptr.toNat + 1 ∧
        Memory.read t.rtc.mem s.rtc.ptr.toNat = b ∧
        ∀ a : Nat, a ≠ s.rtc.ptr.toNat → Memory.read t.rtc.mem a = Memory.read s.rtc.mem a

/-- WR_END (R146): OK when the transaction was acknowledged, TRANSPORT_FAILURE 0b001 when not; nothing is retried. R146
claims nothing of the RTC after a failed write: that its registers from 3 on keep their bytes then is the model's reading
(DEDUCED, log entry 7). -/
def Obligations.WriteEndsByItsAcknowledgment : Prop :=
  ∀ (s : State) (es : List Event), CoreTurn s es → s.env.stalled = false → s.seq = .wrEnd →
    ∃ t : State, step s = .next t ∧ t.events = es ∧ t.calls = .finish (answerAck s) :: s.calls ∧
      t.coreView = { s.coreView with
        seq := .idle,
        code := if answerAck s then .ok else .transportFailure,
        detail := if answerAck s then 0#3 else 0b001#3 } ∧
      (answerAck s = true → t.rtc.mem = s.rtc.mem ∧ t.rtc.ptr = s.rtc.ptr) ∧
      (∀ a : Nat, 3 ≤ a → Memory.read t.rtc.mem a = Memory.read s.rtc.mem a)

/-- SETTIME from acceptance to its end when it is acknowledged (R140 to R146, R52, R202): seven steps, six calls in order,
RTC registers 0, 1, 2 hold the encoded fields, the others their bytes, the pointer is at register 3 (R147 (d)), and TOD and
RES keep their values. -/
def Obligations.AcknowledgedWriteTakesSevenSteps : Prop :=
  ∀ (s : State) (h m sec : Byte) (acks : List Bool),
    s.seq = .idle → s.env.stalled = false → MemoryCanonical s → IsTimeOfDay h m sec →
    s.events = [.command (encode (.settime h m sec))] → s.env.acks = true :: acks →
    ∃ t : State, Host.Core.run Sys2Proof.core 7 s = .next t ∧ t.ended = true ∧
      t.observe.trace = s.observe.trace ++
        [.begin 0x68#7, .send 0x00#8, .send (enc8 sec), .send (enc8 m), .send (enc8 h), .finish true] ∧
      t.coreView = { s.coreView with
        code := .ok, detail := 0#3, opdS := enc8 sec, opdM := enc8 m, opdH := enc8 h } ∧
      Memory.read t.rtc.mem 0 = enc8 sec ∧ Memory.read t.rtc.mem 1 = enc8 m ∧ Memory.read t.rtc.mem 2 = enc8 h ∧
      (∀ a : Nat, 3 ≤ a → Memory.read t.rtc.mem a = Memory.read s.rtc.mem a) ∧ t.rtc.ptr = 0x03#8

/-- SETTIME when it is not acknowledged (R146, R202): all six calls are made, then TRANSPORT_FAILURE 0b001. -/
def Obligations.UnacknowledgedWriteTakesSevenSteps : Prop :=
  ∀ (s : State) (h m sec : Byte) (acks : List Bool),
    s.seq = .idle → s.env.stalled = false → IsTimeOfDay h m sec →
    s.events = [.command (encode (.settime h m sec))] → s.env.acks = false :: acks →
    ∃ t : State, Host.Core.run Sys2Proof.core 7 s = .next t ∧ t.ended = true ∧
      t.observe.trace = s.observe.trace ++
        [.begin 0x68#7, .send 0x00#8, .send (enc8 sec), .send (enc8 m), .send (enc8 h), .finish false] ∧
      t.coreView = { s.coreView with
        code := .transportFailure, detail := 0b001#3, opdS := enc8 sec, opdM := enc8 m, opdH := enc8 h }

/-- Write then read (R147 (c)): on the reference environment (R71) with the device present and no time elapsed, SETTIME and
then GETTIME complete with OK and TOD holds the time written. -/
def Obligations.WriteThenReadReturnsTheTime : Prop :=
  ∀ (s : State) (h m sec : Byte), s.seq = .idle → s.hourMode = .h24 → MemoryCanonical s → IsTimeOfDay h m sec →
    s.events = [.command (encode (.settime h m sec)), .command 0x30000000#32] →
    s.env.mode = .reference → s.env.stalled = false → s.rtc.present = true →
    s.env.acks = [] → s.env.counts = [] → s.env.bytes = [] →
    ∃ t : State, Host.Core.run Sys2Proof.core 20 s = .next t ∧ t.ended = true ∧ t.code = .ok ∧ t.detail = 0#3 ∧
      t.todv = true ∧ t.todH = h ∧ t.todM = m ∧ t.todS = sec ∧ t.rtc.ptr = 0x07#8

/-- A SETTIME that reaches the bus sends a seconds byte with bit 7 = 0 and an hours byte with bit 6 = 0 (R147 (a), (b)):
in every state of the write sequence that meets the invariant. -/
def Obligations.WriteClearsClockHaltAndSelects24Hour : Prop :=
  (∀ (h m sec : Byte) (s t : State), s.seq = .idle → exec (.settime h m sec) s = .next t → t.seq = .wrBegin →
    t.opdS.getLsbD 7 = false ∧ t.opdH.getLsbD 6 = false) ∧
  (∀ s : State, CoreInv s → s.seq.isWrite = true → s.opdS.getLsbD 7 = false ∧ s.opdH.getLsbD 6 = false)

/-! ### STATUS, the ports and reset -/

/-- The layout of the STATUS word (R27, R28, R30): CODE, DETAIL, BUSY, TODV, RESV at their bits, reserved bits 0, and the
values of the codes. -/
def Obligations.StatusWordLayout : Prop :=
  ∀ s : State,
    s.statusPort.extractLsb' 0 3 = s.code.bits ∧ s.statusPort.getLsbD 3 = false ∧
    s.statusPort.extractLsb' 4 3 = s.detail ∧ s.statusPort.getLsbD 7 = false ∧
    (s.statusPort.getLsbD 8 = true ↔ s.seq ≠ .idle) ∧ s.statusPort.getLsbD 9 = s.todv ∧
    s.statusPort.getLsbD 10 = s.resv ∧ s.statusPort.extractLsb' 11 5 = 0#5 ∧
    [Code.none, .ok, .invalidArgument, .malformedRegisterData, .transportFailure, .illegalCommand, .pending].map Code.bits
      = [0#3, 1#3, 2#3, 3#3, 4#3, 5#3, 7#3]

/-- Port reads (R23, R25, R170, R200): `status` at any time; `tod` is {hours, minutes, seconds} once TODV is set and a fault
before; `res` is RES once RESV is set and a fault before. A read changes no register of CORE. That a read is a step, and
what it leaves in `seen`, is the model's (log entry 15). -/
def Obligations.PortReadsGiveTheRegisters : Prop :=
  ∀ (s : State) (rest : List Event),
    (s.events = .readStatus :: rest → step s = .next { s with events := rest, seen := .status s.statusPort :: s.seen }) ∧
    (s.events = .readTod :: rest → s.todv = true → step s = .next
      { s with events := rest,
               seen := .tod (BitVec.ofNat 24 (s.todH.toNat * 65536 + s.todM.toNat * 256 + s.todS.toNat)) :: s.seen }) ∧
    (s.events = .readTod :: rest → s.todv = false → step s = .fault .unwrittenTod) ∧
    (s.events = .readRes :: rest → s.resv = true → step s = .next
      { s with events := rest, seen := .res s.res :: s.seen }) ∧
    (s.events = .readRes :: rest → s.resv = false → step s = .fault .unwrittenRes)

/-- The faults and nothing but the faults of rule R170: a count above 7 in RD_REQ, and reads of unwritten ports. -/
def Obligations.FaultsAreThoseOfTheTable : Prop :=
  ∀ (s : State) (f : Fault), step s = .fault f ↔
    (f = .collaboratorCount ∧ s.seq = .rdReq ∧ s.env.stalled = false ∧ (∃ es, CoreTurn s es) ∧ 7 < answerCount 7 s) ∨
    (f = .unwrittenTod ∧ s.todv = false ∧ ∃ rest, s.events = .readTod :: rest) ∨
    (f = .unwrittenRes ∧ s.resv = false ∧ ∃ rest, s.events = .readRes :: rest)

/-- The state after reset (R38, R192): idle, CODE NONE, DETAIL 0, nothing written, STATUS 0x0000. -/
def Obligations.ResetStateIsAsSpecified : Prop :=
  State.reset.seq = .idle ∧ State.reset.code = .none ∧ State.reset.detail = 0#3 ∧ State.reset.todv = false ∧
  State.reset.resv = false ∧ State.reset.statusPort = 0x0000#16

/-- The reset step, in any state (R190, R38): the specified registers take their values, no bus call is made, HOUR_MODE and
the trace are unaffected, and CORE is idle; when no sequence was running the RTC keeps its state. -/
def Obligations.ResetStepClearsTheSpecifiedRegisters : Prop :=
  ∀ (s : State) (rest : List Event), s.events = .reset :: rest →
    ∃ t : State, step s = .next t ∧ t.seq = .idle ∧ t.code = .none ∧ t.detail = 0#3 ∧ t.todv = false ∧ t.resv = false ∧
      t.statusPort = 0x0000#16 ∧ t.calls = s.calls ∧ t.seen = s.seen ∧ t.hourMode = s.hourMode ∧ t.events = rest ∧
      (s.seq = .idle → t.rtc = s.rtc)

/-! ### The environment -/

/-- The environment's moves, and the host's use of the bus, change no register of CORE and make no call of CORE's (R17, R61,
R196): RTC register r becomes b, the clock ticks, the pointer moves while CORE is idle, the collaborator stops or resumes.
That each is a step of its own is the model's choice (log entries 1, 9, 16, 19). -/
def Obligations.OutsideMovesKeepCore : Prop :=
  ∀ (s t : State) (e : Event) (rest : List Event), s.events = e :: rest → step s = .next t →
    ((∃ r b, e = .rtcSet r b) ∨ (∃ n, e = .rtcTick n) ∨ (∃ p, e = .hostBus p ∧ s.seq = .idle) ∨
      e = .stall ∨ e = .resume) →
    t.coreView = s.coreView ∧ t.calls = s.calls ∧ t.seen = s.seen ∧ t.hourMode = s.hourMode ∧ t.events = rest

/-- A change of RTC register r: it reads as b after, and every other register as before. R61 says only that the registers
may change; that a change is one event on one register is the model's choice (log entries 1, 16). -/
def Obligations.RtcChangesOneRegister : Prop :=
  ∀ (s : State) (r : Fin 7) (b : Byte) (rest : List Event), s.events = .rtcSet r b :: rest → MemoryCanonical s →
    ∃ t : State, step s = .next t ∧ Memory.read t.rtc.mem r.val = b ∧ t.rtc.ptr = s.rtc.ptr ∧
      ∀ a : Nat, a ≠ r.val → Memory.read t.rtc.mem a = Memory.read s.rtc.mem a

/-- A bus call that is not answered leaves CORE where it is (I6, R202; that this is a step which changes nothing is the
model's choice, log entry 19), and RD_FIN, which makes no call, is not held up (R126). -/
def Obligations.UnansweredCallHoldsCore : Prop :=
  ∀ (s : State) (es : List Event), CoreTurn s es → s.env.stalled = true →
    (s.seq ≠ .rdFin → step s = .next { s with events := es }) ∧
    (s.seq = .rdFin → step s = stepRdFin { s with events := es })

/-! ### The whole machine -/

/-- Each step makes at most one bus call, and only CORE's own step in a state that makes one (R22, R60, R66). -/
def Obligations.EachStepMakesAtMostOneCall : Prop :=
  ∀ s t : State, step s = .next t →
    t.calls = s.calls ∨
    (∃ c, t.calls = c :: s.calls) ∧ (∃ es, CoreTurn s es) ∧ s.seq.makesCall = true ∧ s.env.stalled = false

/-- TOD and TODV change only when a GETTIME completes with OK, which leaves a time of day, or in a reset step (R23, R24). -/
def Obligations.OnlyGettimeAndResetWriteTod : Prop :=
  ∀ s t : State, step s = .next t →
    (t.todS = s.todS ∧ t.todM = s.todM ∧ t.todH = s.todH ∧ t.todv = s.todv) ∨
    (s.seq = .rdFin ∧ t.seq = .idle ∧ t.code = .ok ∧ t.todv = true ∧ IsTimeOfDay t.todH t.todM t.todS) ∨
    (t.todv = false ∧ ∃ rest, s.events = .reset :: rest)

/-- RES and RESV change only when an ENC or a DEC completes with OK, or in a reset step (R25, R26). -/
def Obligations.OnlyCodecAndResetWriteRes : Prop :=
  ∀ s t : State, step s = .next t →
    (t.res = s.res ∧ t.resv = s.resv) ∨
    (s.seq = .idle ∧ t.code = .ok ∧ t.resv = true ∧ ∃ w rest, s.events = .command w :: rest ∧
      ((∃ v, decode w = .instr (.enc v) ∧ t.res = enc8 v) ∨ ∃ b, decode w = .instr (.dec b) ∧ t.res = dec8 b)) ∨
    (t.resv = false ∧ ∃ rest, s.events = .reset :: rest)

/-- Reporting an error changes no result (R161): a step after which CORE is idle with an error code leaves TOD, TODV, RES
and RESV as they were. -/
def Obligations.ErrorsKeepTheResults : Prop :=
  ∀ s t : State, step s = .next t →
    t.code = .invalidArgument ∨ t.code = .malformedRegisterData ∨ t.code = .transportFailure ∨ t.code = .illegalCommand →
    t.todS = s.todS ∧ t.todM = s.todM ∧ t.todH = s.todH ∧ t.todv = s.todv ∧ t.res = s.res ∧ t.resv = s.resv

/-- The configuration does not change while CORE runs (R193). -/
def Obligations.HourModeNeverChanges : Prop :=
  ∀ s t : State, step s = .next t → t.hourMode = s.hourMode

/-- CORE writes no RTC register but 0, 1 and 2 (R50): in a state that meets the invariant, its own step leaves every other
register alone, and registers 0 to 2 change only in the write sequence. For a WR_END that was not acknowledged, of which R146
claims nothing, that registers from 3 on keep their bytes is the model's reading (DEDUCED, log entry 7). -/
def Obligations.CoreWritesOnlyRegistersZeroToTwo : Prop :=
  ∀ (s t : State) (es : List Event), CoreInv s → CoreTurn s es → step s = .next t →
    (∀ a : Nat, 3 ≤ a → Memory.read t.rtc.mem a = Memory.read s.rtc.mem a) ∧
    (s.seq.isWrite = false → t.rtc.mem = s.rtc.mem)

/-- What CORE's own step leaves unchanged in every state: HOUR_MODE, RES, RESV, OPD and what the host has read; TOD and TODV
but for RD_FIN; the received bytes but for RD_REQ and RD_RECV (R32, R33); and every RTC register but the one a byte is
stored in (R52), or registers 0 to 2 when a write was not acknowledged, where that the others keep their bytes is the model's
reading (DEDUCED, log entry 7). -/
def Obligations.SequencerKeepsEverythingElse : Prop :=
  ∀ s t : State, sequencerStep s = .next t →
    t.hourMode = s.hourMode ∧ t.events = s.events ∧ t.seen = s.seen ∧ t.res = s.res ∧ t.resv = s.resv ∧
    t.opdS = s.opdS ∧ t.opdM = s.opdM ∧ t.opdH = s.opdH ∧
    (s.seq ≠ .rdFin → t.todS = s.todS ∧ t.todM = s.todM ∧ t.todH = s.todH ∧ t.todv = s.todv) ∧
    (s.seq ≠ .rdReq → t.rxn = s.rxn) ∧
    (s.seq ≠ .rdReq → s.seq ≠ .rdRecv → t.rxi = s.rxi) ∧
    (s.seq ≠ .rdRecv → t.rxb0 = s.rxb0 ∧ t.rxb1 = s.rxb1 ∧ t.rxb2 = s.rxb2) ∧
    (∀ a : Nat,
      ¬ (s.seq ∈ [.rdPtr, .wrPtr, .wrS, .wrM, .wrH] ∧ s.rtc.firstByte = false ∧ a = s.rtc.ptr.toNat) →
      ¬ (s.seq = .wrEnd ∧ answerAck s = false ∧ a < 3) →
      Memory.read t.rtc.mem a = Memory.read s.rtc.mem a)

/-! ### Invariants -/

/-- The RTC's register space stays in canonical form, from every state in which it is. The form is the model's own: that an
unlisted register reads as 0x00 is log entry 5 (DESIGN CHOICE), that there are 256 addresses log entry 6 (PRESUMED). -/
def Obligations.StepKeepsMemoryCanonical : Prop :=
  ∀ s t : State, MemoryCanonical s → step s = .next t → MemoryCanonical t

/-- Whenever TODV = 1, TOD is a time of day (R23): every step keeps it, from every state in which it holds. -/
def Obligations.StepKeepsTodInRange : Prop :=
  ∀ s t : State, TodInRange s → step s = .next t → TodInRange t

/-- CODE is PENDING exactly while CORE is busy (R28, R30): every step keeps it, from every state in which it holds. -/
def Obligations.StepKeepsPendingWhileBusy : Prop :=
  ∀ s t : State, PendingWhileBusy s → step s = .next t → PendingWhileBusy t

/-- The invariant of the machine is kept by every step: TOD and RES in range, PENDING while busy, DETAIL as its code allows,
the progress of a read, OPD the encoding of a time of day, the RTC's pointer where the sequence has put it, and the trace
the calls of the sequence in order (R23, R29, R30, R52, R60, R125, R140); and the RTC's register space in canonical form.
That form is the model's own (log entries 5, 6), and the pointer stays where the sequence has put it because the host's use of
the bus waits while CORE is busy (DESIGN CHOICE, log entry 9). -/
def Obligations.StepKeepsTheInvariant : Prop :=
  ∀ s t : State, CoreInv s → step s = .next t → CoreInv t

/-- The invariant holds after reset. That the RTC's register space lists nothing there is the model's choice (log entry 5). -/
def Obligations.ResetStateMeetsTheInvariant : Prop := CoreInv State.reset
end

