-- ==== Sys2Proof/Laws/State.lean ====
section
/-! SUPPORT. What each register update of Machine/Ops.lean does to each field of State, one lemma per field, so that no
proof unfolds a record update. -/

namespace Sys2Proof.Machine.State

variable (s : State)

/-! ### `setSeq` -/

@[simp] theorem setSeq_seq (q : SeqState) : (s.setSeq q).seq = q := rfl
@[simp] theorem setSeq_todS (q : SeqState) : (s.setSeq q).todS = s.todS := rfl
@[simp] theorem setSeq_todM (q : SeqState) : (s.setSeq q).todM = s.todM := rfl
@[simp] theorem setSeq_todH (q : SeqState) : (s.setSeq q).todH = s.todH := rfl
@[simp] theorem setSeq_todv (q : SeqState) : (s.setSeq q).todv = s.todv := rfl
@[simp] theorem setSeq_res (q : SeqState) : (s.setSeq q).res = s.res := rfl
@[simp] theorem setSeq_resv (q : SeqState) : (s.setSeq q).resv = s.resv := rfl
@[simp] theorem setSeq_code (q : SeqState) : (s.setSeq q).code = s.code := rfl
@[simp] theorem setSeq_detail (q : SeqState) : (s.setSeq q).detail = s.detail := rfl
@[simp] theorem setSeq_opdS (q : SeqState) : (s.setSeq q).opdS = s.opdS := rfl
@[simp] theorem setSeq_opdM (q : SeqState) : (s.setSeq q).opdM = s.opdM := rfl
@[simp] theorem setSeq_opdH (q : SeqState) : (s.setSeq q).opdH = s.opdH := rfl
@[simp] theorem setSeq_rxn (q : SeqState) : (s.setSeq q).rxn = s.rxn := rfl
@[simp] theorem setSeq_rxi (q : SeqState) : (s.setSeq q).rxi = s.rxi := rfl
@[simp] theorem setSeq_rxb0 (q : SeqState) : (s.setSeq q).rxb0 = s.rxb0 := rfl
@[simp] theorem setSeq_rxb1 (q : SeqState) : (s.setSeq q).rxb1 = s.rxb1 := rfl
@[simp] theorem setSeq_rxb2 (q : SeqState) : (s.setSeq q).rxb2 = s.rxb2 := rfl
@[simp] theorem setSeq_hourMode (q : SeqState) : (s.setSeq q).hourMode = s.hourMode := rfl
@[simp] theorem setSeq_rtc (q : SeqState) : (s.setSeq q).rtc = s.rtc := rfl
@[simp] theorem setSeq_env (q : SeqState) : (s.setSeq q).env = s.env := rfl
@[simp] theorem setSeq_events (q : SeqState) : (s.setSeq q).events = s.events := rfl
@[simp] theorem setSeq_calls (q : SeqState) : (s.setSeq q).calls = s.calls := rfl
@[simp] theorem setSeq_seen (q : SeqState) : (s.setSeq q).seen = s.seen := rfl

/-! ### `setStatus` -/

@[simp] theorem setStatus_seq (c : Code) (d : BitVec 3) : (s.setStatus c d).seq = s.seq := rfl
@[simp] theorem setStatus_todS (c : Code) (d : BitVec 3) : (s.setStatus c d).todS = s.todS := rfl
@[simp] theorem setStatus_todM (c : Code) (d : BitVec 3) : (s.setStatus c d).todM = s.todM := rfl
@[simp] theorem setStatus_todH (c : Code) (d : BitVec 3) : (s.setStatus c d).todH = s.todH := rfl
@[simp] theorem setStatus_todv (c : Code) (d : BitVec 3) : (s.setStatus c d).todv = s.todv := rfl
@[simp] theorem setStatus_res (c : Code) (d : BitVec 3) : (s.setStatus c d).res = s.res := rfl
@[simp] theorem setStatus_resv (c : Code) (d : BitVec 3) : (s.setStatus c d).resv = s.resv := rfl
@[simp] theorem setStatus_code (c : Code) (d : BitVec 3) : (s.setStatus c d).code = c := rfl
@[simp] theorem setStatus_detail (c : Code) (d : BitVec 3) : (s.setStatus c d).detail = d := rfl
@[simp] theorem setStatus_opdS (c : Code) (d : BitVec 3) : (s.setStatus c d).opdS = s.opdS := rfl
@[simp] theorem setStatus_opdM (c : Code) (d : BitVec 3) : (s.setStatus c d).opdM = s.opdM := rfl
@[simp] theorem setStatus_opdH (c : Code) (d : BitVec 3) : (s.setStatus c d).opdH = s.opdH := rfl
@[simp] theorem setStatus_rxn (c : Code) (d : BitVec 3) : (s.setStatus c d).rxn = s.rxn := rfl
@[simp] theorem setStatus_rxi (c : Code) (d : BitVec 3) : (s.setStatus c d).rxi = s.rxi := rfl
@[simp] theorem setStatus_rxb0 (c : Code) (d : BitVec 3) : (s.setStatus c d).rxb0 = s.rxb0 := rfl
@[simp] theorem setStatus_rxb1 (c : Code) (d : BitVec 3) : (s.setStatus c d).rxb1 = s.rxb1 := rfl
@[simp] theorem setStatus_rxb2 (c : Code) (d : BitVec 3) : (s.setStatus c d).rxb2 = s.rxb2 := rfl
@[simp] theorem setStatus_hourMode (c : Code) (d : BitVec 3) : (s.setStatus c d).hourMode = s.hourMode := rfl
@[simp] theorem setStatus_rtc (c : Code) (d : BitVec 3) : (s.setStatus c d).rtc = s.rtc := rfl
@[simp] theorem setStatus_env (c : Code) (d : BitVec 3) : (s.setStatus c d).env = s.env := rfl
@[simp] theorem setStatus_events (c : Code) (d : BitVec 3) : (s.setStatus c d).events = s.events := rfl
@[simp] theorem setStatus_calls (c : Code) (d : BitVec 3) : (s.setStatus c d).calls = s.calls := rfl
@[simp] theorem setStatus_seen (c : Code) (d : BitVec 3) : (s.setStatus c d).seen = s.seen := rfl

/-! ### `setRes` -/

@[simp] theorem setRes_seq (b : Byte) : (s.setRes b).seq = s.seq := rfl
@[simp] theorem setRes_todS (b : Byte) : (s.setRes b).todS = s.todS := rfl
@[simp] theorem setRes_todM (b : Byte) : (s.setRes b).todM = s.todM := rfl
@[simp] theorem setRes_todH (b : Byte) : (s.setRes b).todH = s.todH := rfl
@[simp] theorem setRes_todv (b : Byte) : (s.setRes b).todv = s.todv := rfl
@[simp] theorem setRes_res (b : Byte) : (s.setRes b).res = b := rfl
@[simp] theorem setRes_resv (b : Byte) : (s.setRes b).resv = true := rfl
@[simp] theorem setRes_code (b : Byte) : (s.setRes b).code = s.code := rfl
@[simp] theorem setRes_detail (b : Byte) : (s.setRes b).detail = s.detail := rfl
@[simp] theorem setRes_opdS (b : Byte) : (s.setRes b).opdS = s.opdS := rfl
@[simp] theorem setRes_opdM (b : Byte) : (s.setRes b).opdM = s.opdM := rfl
@[simp] theorem setRes_opdH (b : Byte) : (s.setRes b).opdH = s.opdH := rfl
@[simp] theorem setRes_rxn (b : Byte) : (s.setRes b).rxn = s.rxn := rfl
@[simp] theorem setRes_rxi (b : Byte) : (s.setRes b).rxi = s.rxi := rfl
@[simp] theorem setRes_rxb0 (b : Byte) : (s.setRes b).rxb0 = s.rxb0 := rfl
@[simp] theorem setRes_rxb1 (b : Byte) : (s.setRes b).rxb1 = s.rxb1 := rfl
@[simp] theorem setRes_rxb2 (b : Byte) : (s.setRes b).rxb2 = s.rxb2 := rfl
@[simp] theorem setRes_hourMode (b : Byte) : (s.setRes b).hourMode = s.hourMode := rfl
@[simp] theorem setRes_rtc (b : Byte) : (s.setRes b).rtc = s.rtc := rfl
@[simp] theorem setRes_env (b : Byte) : (s.setRes b).env = s.env := rfl
@[simp] theorem setRes_events (b : Byte) : (s.setRes b).events = s.events := rfl
@[simp] theorem setRes_calls (b : Byte) : (s.setRes b).calls = s.calls := rfl
@[simp] theorem setRes_seen (b : Byte) : (s.setRes b).seen = s.seen := rfl

/-! ### `setTod` -/

@[simp] theorem setTod_seq (h m sec : Byte) : (s.setTod h m sec).seq = s.seq := rfl
@[simp] theorem setTod_todS (h m sec : Byte) : (s.setTod h m sec).todS = sec := rfl
@[simp] theorem setTod_todM (h m sec : Byte) : (s.setTod h m sec).todM = m := rfl
@[simp] theorem setTod_todH (h m sec : Byte) : (s.setTod h m sec).todH = h := rfl
@[simp] theorem setTod_todv (h m sec : Byte) : (s.setTod h m sec).todv = true := rfl
@[simp] theorem setTod_res (h m sec : Byte) : (s.setTod h m sec).res = s.res := rfl
@[simp] theorem setTod_resv (h m sec : Byte) : (s.setTod h m sec).resv = s.resv := rfl
@[simp] theorem setTod_code (h m sec : Byte) : (s.setTod h m sec).code = s.code := rfl
@[simp] theorem setTod_detail (h m sec : Byte) : (s.setTod h m sec).detail = s.detail := rfl
@[simp] theorem setTod_opdS (h m sec : Byte) : (s.setTod h m sec).opdS = s.opdS := rfl
@[simp] theorem setTod_opdM (h m sec : Byte) : (s.setTod h m sec).opdM = s.opdM := rfl
@[simp] theorem setTod_opdH (h m sec : Byte) : (s.setTod h m sec).opdH = s.opdH := rfl
@[simp] theorem setTod_rxn (h m sec : Byte) : (s.setTod h m sec).rxn = s.rxn := rfl
@[simp] theorem setTod_rxi (h m sec : Byte) : (s.setTod h m sec).rxi = s.rxi := rfl
@[simp] theorem setTod_rxb0 (h m sec : Byte) : (s.setTod h m sec).rxb0 = s.rxb0 := rfl
@[simp] theorem setTod_rxb1 (h m sec : Byte) : (s.setTod h m sec).rxb1 = s.rxb1 := rfl
@[simp] theorem setTod_rxb2 (h m sec : Byte) : (s.setTod h m sec).rxb2 = s.rxb2 := rfl
@[simp] theorem setTod_hourMode (h m sec : Byte) : (s.setTod h m sec).hourMode = s.hourMode := rfl
@[simp] theorem setTod_rtc (h m sec : Byte) : (s.setTod h m sec).rtc = s.rtc := rfl
@[simp] theorem setTod_env (h m sec : Byte) : (s.setTod h m sec).env = s.env := rfl
@[simp] theorem setTod_events (h m sec : Byte) : (s.setTod h m sec).events = s.events := rfl
@[simp] theorem setTod_calls (h m sec : Byte) : (s.setTod h m sec).calls = s.calls := rfl
@[simp] theorem setTod_seen (h m sec : Byte) : (s.setTod h m sec).seen = s.seen := rfl

/-! ### `setOpd` -/

@[simp] theorem setOpd_seq (h m sec : Byte) : (s.setOpd h m sec).seq = s.seq := rfl
@[simp] theorem setOpd_todS (h m sec : Byte) : (s.setOpd h m sec).todS = s.todS := rfl
@[simp] theorem setOpd_todM (h m sec : Byte) : (s.setOpd h m sec).todM = s.todM := rfl
@[simp] theorem setOpd_todH (h m sec : Byte) : (s.setOpd h m sec).todH = s.todH := rfl
@[simp] theorem setOpd_todv (h m sec : Byte) : (s.setOpd h m sec).todv = s.todv := rfl
@[simp] theorem setOpd_res (h m sec : Byte) : (s.setOpd h m sec).res = s.res := rfl
@[simp] theorem setOpd_resv (h m sec : Byte) : (s.setOpd h m sec).resv = s.resv := rfl
@[simp] theorem setOpd_code (h m sec : Byte) : (s.setOpd h m sec).code = s.code := rfl
@[simp] theorem setOpd_detail (h m sec : Byte) : (s.setOpd h m sec).detail = s.detail := rfl
@[simp] theorem setOpd_opdS (h m sec : Byte) : (s.setOpd h m sec).opdS = sec := rfl
@[simp] theorem setOpd_opdM (h m sec : Byte) : (s.setOpd h m sec).opdM = m := rfl
@[simp] theorem setOpd_opdH (h m sec : Byte) : (s.setOpd h m sec).opdH = h := rfl
@[simp] theorem setOpd_rxn (h m sec : Byte) : (s.setOpd h m sec).rxn = s.rxn := rfl
@[simp] theorem setOpd_rxi (h m sec : Byte) : (s.setOpd h m sec).rxi = s.rxi := rfl
@[simp] theorem setOpd_rxb0 (h m sec : Byte) : (s.setOpd h m sec).rxb0 = s.rxb0 := rfl
@[simp] theorem setOpd_rxb1 (h m sec : Byte) : (s.setOpd h m sec).rxb1 = s.rxb1 := rfl
@[simp] theorem setOpd_rxb2 (h m sec : Byte) : (s.setOpd h m sec).rxb2 = s.rxb2 := rfl
@[simp] theorem setOpd_hourMode (h m sec : Byte) : (s.setOpd h m sec).hourMode = s.hourMode := rfl
@[simp] theorem setOpd_rtc (h m sec : Byte) : (s.setOpd h m sec).rtc = s.rtc := rfl
@[simp] theorem setOpd_env (h m sec : Byte) : (s.setOpd h m sec).env = s.env := rfl
@[simp] theorem setOpd_events (h m sec : Byte) : (s.setOpd h m sec).events = s.events := rfl
@[simp] theorem setOpd_calls (h m sec : Byte) : (s.setOpd h m sec).calls = s.calls := rfl
@[simp] theorem setOpd_seen (h m sec : Byte) : (s.setOpd h m sec).seen = s.seen := rfl

/-! ### `startReceive` -/

@[simp] theorem startReceive_seq (n : BitVec 3) : (s.startReceive n).seq = s.seq := rfl
@[simp] theorem startReceive_todS (n : BitVec 3) : (s.startReceive n).todS = s.todS := rfl
@[simp] theorem startReceive_todM (n : BitVec 3) : (s.startReceive n).todM = s.todM := rfl
@[simp] theorem startReceive_todH (n : BitVec 3) : (s.startReceive n).todH = s.todH := rfl
@[simp] theorem startReceive_todv (n : BitVec 3) : (s.startReceive n).todv = s.todv := rfl
@[simp] theorem startReceive_res (n : BitVec 3) : (s.startReceive n).res = s.res := rfl
@[simp] theorem startReceive_resv (n : BitVec 3) : (s.startReceive n).resv = s.resv := rfl
@[simp] theorem startReceive_code (n : BitVec 3) : (s.startReceive n).code = s.code := rfl
@[simp] theorem startReceive_detail (n : BitVec 3) : (s.startReceive n).detail = s.detail := rfl
@[simp] theorem startReceive_opdS (n : BitVec 3) : (s.startReceive n).opdS = s.opdS := rfl
@[simp] theorem startReceive_opdM (n : BitVec 3) : (s.startReceive n).opdM = s.opdM := rfl
@[simp] theorem startReceive_opdH (n : BitVec 3) : (s.startReceive n).opdH = s.opdH := rfl
@[simp] theorem startReceive_rxn (n : BitVec 3) : (s.startReceive n).rxn = n := rfl
@[simp] theorem startReceive_rxi (n : BitVec 3) : (s.startReceive n).rxi = 0#3 := rfl
@[simp] theorem startReceive_rxb0 (n : BitVec 3) : (s.startReceive n).rxb0 = s.rxb0 := rfl
@[simp] theorem startReceive_rxb1 (n : BitVec 3) : (s.startReceive n).rxb1 = s.rxb1 := rfl
@[simp] theorem startReceive_rxb2 (n : BitVec 3) : (s.startReceive n).rxb2 = s.rxb2 := rfl
@[simp] theorem startReceive_hourMode (n : BitVec 3) : (s.startReceive n).hourMode = s.hourMode := rfl
@[simp] theorem startReceive_rtc (n : BitVec 3) : (s.startReceive n).rtc = s.rtc := rfl
@[simp] theorem startReceive_env (n : BitVec 3) : (s.startReceive n).env = s.env := rfl
@[simp] theorem startReceive_events (n : BitVec 3) : (s.startReceive n).events = s.events := rfl
@[simp] theorem startReceive_calls (n : BitVec 3) : (s.startReceive n).calls = s.calls := rfl
@[simp] theorem startReceive_seen (n : BitVec 3) : (s.startReceive n).seen = s.seen := rfl

/-! ### `receiveInto` -/

@[simp] theorem receiveInto_seq (b : Byte) : (s.receiveInto b).seq = s.seq := rfl
@[simp] theorem receiveInto_todS (b : Byte) : (s.receiveInto b).todS = s.todS := rfl
@[simp] theorem receiveInto_todM (b : Byte) : (s.receiveInto b).todM = s.todM := rfl
@[simp] theorem receiveInto_todH (b : Byte) : (s.receiveInto b).todH = s.todH := rfl
@[simp] theorem receiveInto_todv (b : Byte) : (s.receiveInto b).todv = s.todv := rfl
@[simp] theorem receiveInto_res (b : Byte) : (s.receiveInto b).res = s.res := rfl
@[simp] theorem receiveInto_resv (b : Byte) : (s.receiveInto b).resv = s.resv := rfl
@[simp] theorem receiveInto_code (b : Byte) : (s.receiveInto b).code = s.code := rfl
@[simp] theorem receiveInto_detail (b : Byte) : (s.receiveInto b).detail = s.detail := rfl
@[simp] theorem receiveInto_opdS (b : Byte) : (s.receiveInto b).opdS = s.opdS := rfl
@[simp] theorem receiveInto_opdM (b : Byte) : (s.receiveInto b).opdM = s.opdM := rfl
@[simp] theorem receiveInto_opdH (b : Byte) : (s.receiveInto b).opdH = s.opdH := rfl
@[simp] theorem receiveInto_rxn (b : Byte) : (s.receiveInto b).rxn = s.rxn := rfl
@[simp] theorem receiveInto_rxi (b : Byte) : (s.receiveInto b).rxi = s.rxi + 1#3 := rfl
@[simp] theorem receiveInto_rxb0 (b : Byte) : (s.receiveInto b).rxb0 = if s.rxi = 0#3 then b else s.rxb0 := rfl
@[simp] theorem receiveInto_rxb1 (b : Byte) : (s.receiveInto b).rxb1 = if s.rxi = 1#3 then b else s.rxb1 := rfl
@[simp] theorem receiveInto_rxb2 (b : Byte) : (s.receiveInto b).rxb2 = if s.rxi = 2#3 then b else s.rxb2 := rfl
@[simp] theorem receiveInto_hourMode (b : Byte) : (s.receiveInto b).hourMode = s.hourMode := rfl
@[simp] theorem receiveInto_rtc (b : Byte) : (s.receiveInto b).rtc = s.rtc := rfl
@[simp] theorem receiveInto_env (b : Byte) : (s.receiveInto b).env = s.env := rfl
@[simp] theorem receiveInto_events (b : Byte) : (s.receiveInto b).events = s.events := rfl
@[simp] theorem receiveInto_calls (b : Byte) : (s.receiveInto b).calls = s.calls := rfl
@[simp] theorem receiveInto_seen (b : Byte) : (s.receiveInto b).seen = s.seen := rfl

/-! ### `setRtc` -/

@[simp] theorem setRtc_seq (r : Rtc) : (s.setRtc r).seq = s.seq := rfl
@[simp] theorem setRtc_todS (r : Rtc) : (s.setRtc r).todS = s.todS := rfl
@[simp] theorem setRtc_todM (r : Rtc) : (s.setRtc r).todM = s.todM := rfl
@[simp] theorem setRtc_todH (r : Rtc) : (s.setRtc r).todH = s.todH := rfl
@[simp] theorem setRtc_todv (r : Rtc) : (s.setRtc r).todv = s.todv := rfl
@[simp] theorem setRtc_res (r : Rtc) : (s.setRtc r).res = s.res := rfl
@[simp] theorem setRtc_resv (r : Rtc) : (s.setRtc r).resv = s.resv := rfl
@[simp] theorem setRtc_code (r : Rtc) : (s.setRtc r).code = s.code := rfl
@[simp] theorem setRtc_detail (r : Rtc) : (s.setRtc r).detail = s.detail := rfl
@[simp] theorem setRtc_opdS (r : Rtc) : (s.setRtc r).opdS = s.opdS := rfl
@[simp] theorem setRtc_opdM (r : Rtc) : (s.setRtc r).opdM = s.opdM := rfl
@[simp] theorem setRtc_opdH (r : Rtc) : (s.setRtc r).opdH = s.opdH := rfl
@[simp] theorem setRtc_rxn (r : Rtc) : (s.setRtc r).rxn = s.rxn := rfl
@[simp] theorem setRtc_rxi (r : Rtc) : (s.setRtc r).rxi = s.rxi := rfl
@[simp] theorem setRtc_rxb0 (r : Rtc) : (s.setRtc r).rxb0 = s.rxb0 := rfl
@[simp] theorem setRtc_rxb1 (r : Rtc) : (s.setRtc r).rxb1 = s.rxb1 := rfl
@[simp] theorem setRtc_rxb2 (r : Rtc) : (s.setRtc r).rxb2 = s.rxb2 := rfl
@[simp] theorem setRtc_hourMode (r : Rtc) : (s.setRtc r).hourMode = s.hourMode := rfl
@[simp] theorem setRtc_rtc (r : Rtc) : (s.setRtc r).rtc = r := rfl
@[simp] theorem setRtc_env (r : Rtc) : (s.setRtc r).env = s.env := rfl
@[simp] theorem setRtc_events (r : Rtc) : (s.setRtc r).events = s.events := rfl
@[simp] theorem setRtc_calls (r : Rtc) : (s.setRtc r).calls = s.calls := rfl
@[simp] theorem setRtc_seen (r : Rtc) : (s.setRtc r).seen = s.seen := rfl

/-! ### `setEnv` -/

@[simp] theorem setEnv_seq (e : Env) : (s.setEnv e).seq = s.seq := rfl
@[simp] theorem setEnv_todS (e : Env) : (s.setEnv e).todS = s.todS := rfl
@[simp] theorem setEnv_todM (e : Env) : (s.setEnv e).todM = s.todM := rfl
@[simp] theorem setEnv_todH (e : Env) : (s.setEnv e).todH = s.todH := rfl
@[simp] theorem setEnv_todv (e : Env) : (s.setEnv e).todv = s.todv := rfl
@[simp] theorem setEnv_res (e : Env) : (s.setEnv e).res = s.res := rfl
@[simp] theorem setEnv_resv (e : Env) : (s.setEnv e).resv = s.resv := rfl
@[simp] theorem setEnv_code (e : Env) : (s.setEnv e).code = s.code := rfl
@[simp] theorem setEnv_detail (e : Env) : (s.setEnv e).detail = s.detail := rfl
@[simp] theorem setEnv_opdS (e : Env) : (s.setEnv e).opdS = s.opdS := rfl
@[simp] theorem setEnv_opdM (e : Env) : (s.setEnv e).opdM = s.opdM := rfl
@[simp] theorem setEnv_opdH (e : Env) : (s.setEnv e).opdH = s.opdH := rfl
@[simp] theorem setEnv_rxn (e : Env) : (s.setEnv e).rxn = s.rxn := rfl
@[simp] theorem setEnv_rxi (e : Env) : (s.setEnv e).rxi = s.rxi := rfl
@[simp] theorem setEnv_rxb0 (e : Env) : (s.setEnv e).rxb0 = s.rxb0 := rfl
@[simp] theorem setEnv_rxb1 (e : Env) : (s.setEnv e).rxb1 = s.rxb1 := rfl
@[simp] theorem setEnv_rxb2 (e : Env) : (s.setEnv e).rxb2 = s.rxb2 := rfl
@[simp] theorem setEnv_hourMode (e : Env) : (s.setEnv e).hourMode = s.hourMode := rfl
@[simp] theorem setEnv_rtc (e : Env) : (s.setEnv e).rtc = s.rtc := rfl
@[simp] theorem setEnv_env (e : Env) : (s.setEnv e).env = e := rfl
@[simp] theorem setEnv_events (e : Env) : (s.setEnv e).events = s.events := rfl
@[simp] theorem setEnv_calls (e : Env) : (s.setEnv e).calls = s.calls := rfl
@[simp] theorem setEnv_seen (e : Env) : (s.setEnv e).seen = s.seen := rfl

/-! ### `setEvents` -/

@[simp] theorem setEvents_seq (es : List Event) : (s.setEvents es).seq = s.seq := rfl
@[simp] theorem setEvents_todS (es : List Event) : (s.setEvents es).todS = s.todS := rfl
@[simp] theorem setEvents_todM (es : List Event) : (s.setEvents es).todM = s.todM := rfl
@[simp] theorem setEvents_todH (es : List Event) : (s.setEvents es).todH = s.todH := rfl
@[simp] theorem setEvents_todv (es : List Event) : (s.setEvents es).todv = s.todv := rfl
@[simp] theorem setEvents_res (es : List Event) : (s.setEvents es).res = s.res := rfl
@[simp] theorem setEvents_resv (es : List Event) : (s.setEvents es).resv = s.resv := rfl
@[simp] theorem setEvents_code (es : List Event) : (s.setEvents es).code = s.code := rfl
@[simp] theorem setEvents_detail (es : List Event) : (s.setEvents es).detail = s.detail := rfl
@[simp] theorem setEvents_opdS (es : List Event) : (s.setEvents es).opdS = s.opdS := rfl
@[simp] theorem setEvents_opdM (es : List Event) : (s.setEvents es).opdM = s.opdM := rfl
@[simp] theorem setEvents_opdH (es : List Event) : (s.setEvents es).opdH = s.opdH := rfl
@[simp] theorem setEvents_rxn (es : List Event) : (s.setEvents es).rxn = s.rxn := rfl
@[simp] theorem setEvents_rxi (es : List Event) : (s.setEvents es).rxi = s.rxi := rfl
@[simp] theorem setEvents_rxb0 (es : List Event) : (s.setEvents es).rxb0 = s.rxb0 := rfl
@[simp] theorem setEvents_rxb1 (es : List Event) : (s.setEvents es).rxb1 = s.rxb1 := rfl
@[simp] theorem setEvents_rxb2 (es : List Event) : (s.setEvents es).rxb2 = s.rxb2 := rfl
@[simp] theorem setEvents_hourMode (es : List Event) : (s.setEvents es).hourMode = s.hourMode := rfl
@[simp] theorem setEvents_rtc (es : List Event) : (s.setEvents es).rtc = s.rtc := rfl
@[simp] theorem setEvents_env (es : List Event) : (s.setEvents es).env = s.env := rfl
@[simp] theorem setEvents_events (es : List Event) : (s.setEvents es).events = es := rfl
@[simp] theorem setEvents_calls (es : List Event) : (s.setEvents es).calls = s.calls := rfl
@[simp] theorem setEvents_seen (es : List Event) : (s.setEvents es).seen = s.seen := rfl

/-! ### `logCall` -/

@[simp] theorem logCall_seq (c : BusCall) : (s.logCall c).seq = s.seq := rfl
@[simp] theorem logCall_todS (c : BusCall) : (s.logCall c).todS = s.todS := rfl
@[simp] theorem logCall_todM (c : BusCall) : (s.logCall c).todM = s.todM := rfl
@[simp] theorem logCall_todH (c : BusCall) : (s.logCall c).todH = s.todH := rfl
@[simp] theorem logCall_todv (c : BusCall) : (s.logCall c).todv = s.todv := rfl
@[simp] theorem logCall_res (c : BusCall) : (s.logCall c).res = s.res := rfl
@[simp] theorem logCall_resv (c : BusCall) : (s.logCall c).resv = s.resv := rfl
@[simp] theorem logCall_code (c : BusCall) : (s.logCall c).code = s.code := rfl
@[simp] theorem logCall_detail (c : BusCall) : (s.logCall c).detail = s.detail := rfl
@[simp] theorem logCall_opdS (c : BusCall) : (s.logCall c).opdS = s.opdS := rfl
@[simp] theorem logCall_opdM (c : BusCall) : (s.logCall c).opdM = s.opdM := rfl
@[simp] theorem logCall_opdH (c : BusCall) : (s.logCall c).opdH = s.opdH := rfl
@[simp] theorem logCall_rxn (c : BusCall) : (s.logCall c).rxn = s.rxn := rfl
@[simp] theorem logCall_rxi (c : BusCall) : (s.logCall c).rxi = s.rxi := rfl
@[simp] theorem logCall_rxb0 (c : BusCall) : (s.logCall c).rxb0 = s.rxb0 := rfl
@[simp] theorem logCall_rxb1 (c : BusCall) : (s.logCall c).rxb1 = s.rxb1 := rfl
@[simp] theorem logCall_rxb2 (c : BusCall) : (s.logCall c).rxb2 = s.rxb2 := rfl
@[simp] theorem logCall_hourMode (c : BusCall) : (s.logCall c).hourMode = s.hourMode := rfl
@[simp] theorem logCall_rtc (c : BusCall) : (s.logCall c).rtc = s.rtc := rfl
@[simp] theorem logCall_env (c : BusCall) : (s.logCall c).env = s.env := rfl
@[simp] theorem logCall_events (c : BusCall) : (s.logCall c).events = s.events := rfl
@[simp] theorem logCall_calls (c : BusCall) : (s.logCall c).calls = c :: s.calls := rfl
@[simp] theorem logCall_seen (c : BusCall) : (s.logCall c).seen = s.seen := rfl

/-! ### `logRead` -/

@[simp] theorem logRead_seq (p : PortRead) : (s.logRead p).seq = s.seq := rfl
@[simp] theorem logRead_todS (p : PortRead) : (s.logRead p).todS = s.todS := rfl
@[simp] theorem logRead_todM (p : PortRead) : (s.logRead p).todM = s.todM := rfl
@[simp] theorem logRead_todH (p : PortRead) : (s.logRead p).todH = s.todH := rfl
@[simp] theorem logRead_todv (p : PortRead) : (s.logRead p).todv = s.todv := rfl
@[simp] theorem logRead_res (p : PortRead) : (s.logRead p).res = s.res := rfl
@[simp] theorem logRead_resv (p : PortRead) : (s.logRead p).resv = s.resv := rfl
@[simp] theorem logRead_code (p : PortRead) : (s.logRead p).code = s.code := rfl
@[simp] theorem logRead_detail (p : PortRead) : (s.logRead p).detail = s.detail := rfl
@[simp] theorem logRead_opdS (p : PortRead) : (s.logRead p).opdS = s.opdS := rfl
@[simp] theorem logRead_opdM (p : PortRead) : (s.logRead p).opdM = s.opdM := rfl
@[simp] theorem logRead_opdH (p : PortRead) : (s.logRead p).opdH = s.opdH := rfl
@[simp] theorem logRead_rxn (p : PortRead) : (s.logRead p).rxn = s.rxn := rfl
@[simp] theorem logRead_rxi (p : PortRead) : (s.logRead p).rxi = s.rxi := rfl
@[simp] theorem logRead_rxb0 (p : PortRead) : (s.logRead p).rxb0 = s.rxb0 := rfl
@[simp] theorem logRead_rxb1 (p : PortRead) : (s.logRead p).rxb1 = s.rxb1 := rfl
@[simp] theorem logRead_rxb2 (p : PortRead) : (s.logRead p).rxb2 = s.rxb2 := rfl
@[simp] theorem logRead_hourMode (p : PortRead) : (s.logRead p).hourMode = s.hourMode := rfl
@[simp] theorem logRead_rtc (p : PortRead) : (s.logRead p).rtc = s.rtc := rfl
@[simp] theorem logRead_env (p : PortRead) : (s.logRead p).env = s.env := rfl
@[simp] theorem logRead_events (p : PortRead) : (s.logRead p).events = s.events := rfl
@[simp] theorem logRead_calls (p : PortRead) : (s.logRead p).calls = s.calls := rfl
@[simp] theorem logRead_seen (p : PortRead) : (s.logRead p).seen = p :: s.seen := rfl

end Sys2Proof.Machine.State
end

