-- ==== Sys2Proof/Laws/Memory.lean ====
section
/-! SUPPORT. The laws of the RTC's register space: a read after a write, and that every operation keeps the canonical
form. -/

namespace Sys2Proof.Machine

theorem Memory.canonicalFrom_cons (lo k : Nat) (b : Byte) (rest : Memory) :
    Memory.canonicalFrom lo ((k, b) :: rest) = true ↔
      lo ≤ k ∧ k < Memory.size ∧ b ≠ Memory.unlisted ∧ Memory.canonicalFrom (k + 1) rest = true := by
  simp [Memory.canonicalFrom, and_assoc]

/-- A memory canonical from a higher address is canonical from a lower one. -/
theorem Memory.canonicalFrom_mono {lo lo' : Nat} {m : Memory} (h : Memory.canonicalFrom lo m = true) (hl : lo' ≤ lo) :
    Memory.canonicalFrom lo' m = true := by
  cases m with
  | nil => rfl
  | cons c rest =>
    rw [Memory.canonicalFrom_cons] at h ⊢
    exact ⟨hl.trans h.1, h.2⟩

/-- An address below a canonical memory's first is unlisted. -/
theorem Memory.read_below {lo a : Nat} {m : Memory} (h : Memory.canonicalFrom lo m = true) (ha : a < lo) :
    Memory.read m a = Memory.unlisted := by
  induction m generalizing lo with
  | nil => rfl
  | cons c rest ih =>
    obtain ⟨k, b⟩ := c
    rw [Memory.canonicalFrom_cons] at h
    have hk : k ≠ a := by omega
    simp only [Memory.read, hk, if_false]
    exact ih h.2.2.2 (by omega)

/-- A write keeps the canonical form. -/
theorem Memory.canonicalFrom_write {lo a : Nat} {m : Memory} {v : Byte} (h : Memory.canonicalFrom lo m = true)
    (hlo : lo ≤ a) (ha : a < Memory.size) : Memory.canonicalFrom lo (Memory.write m a v) = true := by
  induction m generalizing lo with
  | nil =>
    by_cases hv : v = Memory.unlisted <;> simp [Memory.write, hv, Memory.canonicalFrom, hlo, ha]
  | cons c rest ih =>
    obtain ⟨k, b⟩ := c
    have hc := (Memory.canonicalFrom_cons lo k b rest).1 h
    by_cases hka : k < a
    · simp only [Memory.write, hka, if_true]
      rw [Memory.canonicalFrom_cons]
      exact ⟨hc.1, hc.2.1, hc.2.2.1, ih hc.2.2.2 (by omega)⟩
    · by_cases hk : k = a
      · subst hk
        by_cases hv : v = Memory.unlisted
        · simpa [Memory.write, hv] using Memory.canonicalFrom_mono hc.2.2.2 (by omega)
        · simp only [Memory.write, hka, if_false, if_true, hv]
          exact (Memory.canonicalFrom_cons _ _ _ _).2 ⟨hlo, ha, hv, hc.2.2.2⟩
      · by_cases hv : v = Memory.unlisted
        · simpa [Memory.write, hka, hk, hv] using h
        · simp only [Memory.write, hka, hk, if_false, hv]
          refine (Memory.canonicalFrom_cons _ _ _ _).2 ⟨hlo, ha, hv, ?_⟩
          exact (Memory.canonicalFrom_cons _ _ _ _).2 ⟨by omega, hc.2⟩

/-- Writing a register keeps the canonical form. -/
theorem Memory.wf_write {m : Memory} {a : Nat} {v : Byte} (h : Memory.wf m = true) (ha : a < Memory.size) :
    Memory.wf (Memory.write m a v) = true := Memory.canonicalFrom_write h (Nat.zero_le a) ha

/-- A read of the register just written gives the byte written. -/
theorem Memory.read_write_same {m : Memory} {lo a : Nat} {v : Byte} (h : Memory.canonicalFrom lo m = true) :
    Memory.read (Memory.write m a v) a = v := by
  induction m generalizing lo with
  | nil => by_cases hv : v = Memory.unlisted <;> simp [Memory.write, Memory.read, hv]
  | cons c rest ih =>
    obtain ⟨k, b⟩ := c
    have hc := (Memory.canonicalFrom_cons lo k b rest).1 h
    by_cases hka : k < a
    · have hk : k ≠ a := by omega
      simpa [Memory.write, Memory.read, hka, hk] using ih hc.2.2.2
    · by_cases hv : v = Memory.unlisted
      · by_cases hk : k = a
        · subst hk
          simpa [Memory.write, hv] using Memory.read_below hc.2.2.2 (Nat.lt_succ_self k)
        · have hb := Memory.read_below hc.2.2.2 (a := a) (by omega)
          simp [Memory.write, Memory.read, hka, hk, hv, hb]
      · simp [Memory.write, Memory.read, hka, hv]

/-- A write leaves every other register alone. -/
theorem Memory.read_write_other {m : Memory} {a a' : Nat} {v : Byte} (h : a' ≠ a) :
    Memory.read (Memory.write m a v) a' = Memory.read m a' := by
  induction m with
  | nil => by_cases hv : v = Memory.unlisted <;> simp [Memory.write, Memory.read, hv, Ne.symm h]
  | cons c rest ih =>
    obtain ⟨k, b⟩ := c
    by_cases hka : k < a
    · simp [Memory.write, Memory.read, hka, ih]
    · by_cases hk : k = a
      · subst hk
        by_cases hv : v = Memory.unlisted <;> simp [Memory.write, Memory.read, hv, Ne.symm h]
      · by_cases hv : v = Memory.unlisted <;> simp [Memory.write, Memory.read, hka, hk, hv, Ne.symm h]

/-- Freeing the first n registers keeps the canonical form. -/
theorem Memory.wf_freeFirst {m : Memory} {d n : Nat} (h : Memory.wf m = true) (hn : n ≤ Memory.size) :
    Memory.wf (Memory.freeFirst m d n) = true := by
  induction n with
  | zero => exact h
  | succ n ih => exact Memory.wf_write (ih (by omega)) (by omega)

/-- Freeing the first n registers leaves the others alone. -/
theorem Memory.read_freeFirst {m : Memory} {d n a : Nat} (h : n ≤ a) :
    Memory.read (Memory.freeFirst m d n) a = Memory.read m a := by
  induction n with
  | zero => rfl
  | succ n ih => rw [Memory.freeFirst, Memory.read_write_other (by omega), ih (by omega)]

end Sys2Proof.Machine
end

