-- ==== Sys2Proof/Laws/Ops.lean ====
section
/-! SUPPORT. One lemma for each shared operation that says what it does: acceptance, completion, the bus calls, the
pointer, the codec's functions and the DETAIL masks. -/

namespace Sys2Proof.Machine

/-! ### Acceptance and completion -/

/-- What an accepted command can answer: CORE is idle and the command answers, or CORE is busy and nothing changes. -/
theorem whenIdle_next {s t : State} {f : State → Outcome} :
    whenIdle s f = .next t ↔ (s.seq = .idle ∧ f s = .next t) ∨ (s.seq ≠ .idle ∧ s = t) := by
  by_cases h : s.seq = .idle <;> simp [whenIdle, h]

theorem whenIdle_idle {s : State} {f : State → Outcome} (h : s.seq = .idle) : whenIdle s f = f s := by
  simp [whenIdle, h]

theorem whenIdle_busy {s : State} {f : State → Outcome} (h : s.seq ≠ .idle) : whenIdle s f = .next s := by
  simp [whenIdle, h]

@[simp] theorem complete_eq (c : Code) (d : BitVec 3) (s : State) :
    complete c d s = (s.setStatus c d).setSeq .idle := rfl

@[simp] theorem raiseCondition_eq (e : Condition) (d : BitVec 3) (s : State) :
    raiseCondition e d s = complete e.code d s := rfl

@[simp] theorem beginSequence_eq (q : SeqState) (s : State) :
    beginSequence q s = (s.setStatus .pending 0#3).setSeq q := rfl

/-! ### The bus calls -/

@[simp] theorem busBegin_eq (a : DeviceAddr) (s : State) :
    busBegin a s = (s.setRtc { s.rtc with writeOpen := true, firstByte := true }).logCall (.begin a) := rfl

@[simp] theorem busSend_eq (b : Byte) (s : State) :
    busSend b s = (s.setRtc (rtcAfterSend s.env.mode b s.rtc)).logCall (.send b) := rfl

@[simp] theorem busEnd_eq (s : State) :
    busEnd s =
      ((s.setRtc (rtcAfterEnd s.env (answerAck s) s.rtc)).setEnv (afterAck s.env)).logCall (.finish (answerAck s)) := rfl

@[simp] theorem busRequest_eq (a : DeviceAddr) (k : Nat) (s : State) :
    busRequest a k s =
      ((s.setRtc (rtcAfterRequest s.env.mode (answerCount k s) s.rtc)).setEnv (afterCount s.env)).logCall
        (.request a k (answerCount k s)) := rfl

@[simp] theorem busReceive_eq (s : State) :
    busReceive s =
      ((s.setRtc { s.rtc with rxq := s.rtc.rxq.tail }).setEnv (afterByte s.env)).logCall (.receive (answerByte s)) := rfl

/-- The first byte of a transaction sets the pointer. -/
theorem rtcAfterSend_first {mode : EnvMode} {b : Byte} {r : Rtc} (h : r.firstByte = true) :
    rtcAfterSend mode b r = { r with ptr := b, firstByte := false } := by simp [rtcAfterSend, h]

/-- Each further byte is stored at the pointer, which advances. -/
theorem rtcAfterSend_further {mode : EnvMode} {b : Byte} {r : Rtc} (h : r.firstByte = false) :
    rtcAfterSend mode b r = { r with mem := Memory.write r.mem r.ptr.toNat b, ptr := pointerAfter mode r.ptr } := by
  simp [rtcAfterSend, h]

/-- Sending a byte keeps the canonical form. -/
theorem rtcAfterSend_wf {mode : EnvMode} {b : Byte} {r : Rtc} (h : Memory.wf r.mem = true) :
    Memory.wf (rtcAfterSend mode b r).mem = true := by
  by_cases hf : r.firstByte = true
  · simpa [rtcAfterSend, hf] using h
  · simpa [rtcAfterSend, hf] using Memory.wf_write h r.ptr.isLt

/-- A free answer, or the reference environment's, keeps the contract of BusRequest. -/
theorem answerCount_le {s : State} (h : s.env.counts = []) : answerCount Config.readCount s ≤ Config.readCount := by
  cases hm : s.env.mode with
  | reference => simp [answerCount, h, hm]
  | free =>
    have := (Config.freeCount s.env.draws).isLt
    simp only [answerCount, h, hm, Config.readCount]
    omega

/-! ### The pointer -/

/-- In registers 0 to 6 the pointer advances by one. -/
theorem pointerAfter_toNat {mode : EnvMode} {p : Byte} (h : p.toNat ≤ 6) :
    (pointerAfter mode p).toNat = p.toNat + 1 := by
  have hp : (p + 1#8).toNat = p.toNat + 1 := by
    rw [BitVec.toNat_add]
    simp only [BitVec.toNat_ofNat]
    omega
  cases mode <;> simp [pointerAfter, h, hp]

/-- Within registers 0 to 6 the pointer passes n bytes. -/
theorem pointerAfterAll_toNat {mode : EnvMode} {p : Byte} {n : Nat} (h : p.toNat + n ≤ 7) :
    (pointerAfterAll mode p n).toNat = p.toNat + n := by
  induction n generalizing p with
  | zero => rfl
  | succ n ih =>
    have hp := pointerAfter_toNat (mode := mode) (p := p) (by omega)
    rw [pointerAfterAll, ih (by omega), hp]
    omega

@[simp] theorem bytesFrom_length (mode : EnvMode) (m : Memory) (p : Byte) (n : Nat) :
    (bytesFrom mode m p n).length = n := by
  induction n generalizing p with
  | zero => rfl
  | succ n ih => simp [bytesFrom, ih]

/-! ### The codec's functions and the masks -/

theorem hi_le (b : Byte) : hi b ≤ 15 := by have := b.isLt; unfold hi; omega

theorem lo_le (b : Byte) : lo b ≤ 15 := by unfold lo; omega

/-- `dec8` never wraps (R112). -/
theorem dec8_toNat (b : Byte) : (dec8 b).toNat = hi b * 10 + lo b := by
  have := hi_le b
  have := lo_le b
  simp only [dec8, BitVec.toNat_ofNat]
  omega

/-- `enc8` on its domain never wraps (R112). -/
theorem enc8_toNat {v : Byte} (h : v.toNat ≤ 99) : (enc8 v).toNat = v.toNat / 10 * 16 + v.toNat % 10 := by
  simp only [enc8, BitVec.toNat_ofNat]
  omega

theorem bcdOk_iff (b : Byte) : bcdOk b = true ↔ hi b ≤ 9 ∧ lo b ≤ 9 := by simp [bcdOk]

theorem mask3_eq_zero (b2 b1 b0 : Bool) : mask3 b2 b1 b0 = 0#3 ↔ b2 = false ∧ b1 = false ∧ b0 = false := by
  revert b2 b1 b0
  decide

/-- DEC accepts exactly the well-formed bytes. -/
theorem detailNibbles_eq_zero (b : Byte) : detailNibbles b = 0#3 ↔ bcdOk b = true := by
  rw [detailNibbles, mask3_eq_zero, bcdOk_iff]
  simp

/-- SETTIME accepts exactly the times of day. -/
theorem detailTime_eq_zero (h m s : Byte) : detailTime h m s = 0#3 ↔ IsTimeOfDay h m s := by
  rw [detailTime, mask3_eq_zero]
  simp [hoursOut, minutesOut, secondsOut, IsTimeOfDay]

end Sys2Proof.Machine
end

