-- ==== Sys2Proof/Laws/Step.lean ====
section
/-! SUPPORT. What a step can do, said once: which of the machine's moves it is. Every invariant is proved by cases of
`step_cases`. -/

namespace Sys2Proof.Machine

theorem State.setEvents_self (s : State) : s.setEvents s.events = s := rfl

/-- On CORE's turn a step is CORE's own. -/
theorem step_of_coreTurn {s : State} {es : List Event} (h : CoreTurn s es) :
    step s = sequencerStep (s.setEvents es) := by
  rcases h with ⟨h, rfl⟩ | h | ⟨hb, rfl, ⟨w, rest, h⟩ | ⟨p, rest, h⟩⟩
  · rw [← h, State.setEvents_self]
    simp [step, nextMove, h]
  · simp [step, nextMove, h]
  · rw [State.setEvents_self]
    simp [step, nextMove, h, hb]
  · rw [State.setEvents_self]
    simp [step, nextMove, h, hb]

/-- A move of the host or the environment other than a command word. -/
inductive OutsideMove (s : State) (rest : List Event) : Event → Outcome → Prop where
  | reset : OutsideMove s rest .reset (.next (resetCore (s.setEvents rest)))
  | readStatus : OutsideMove s rest .readStatus (readStatus (s.setEvents rest))
  | readTod : OutsideMove s rest .readTod (readTod (s.setEvents rest))
  | readRes : OutsideMove s rest .readRes (readRes (s.setEvents rest))
  | rtcSet (r : Fin 7) (b : Byte) : OutsideMove s rest (.rtcSet r b) (.next (rtcSet r b (s.setEvents rest)))
  | rtcTick (t : Nat) : OutsideMove s rest (.rtcTick t) (.next (rtcTick t (s.setEvents rest)))
  | hostBus (p : Byte) (h : s.seq = .idle) :
      OutsideMove s rest (.hostBus p) (.next (hostUsesBus p (s.setEvents rest)))
  | stall : OutsideMove s rest .stall (.next ((s.setEvents rest).setEnv { s.env with stalled := true }))
  | resume : OutsideMove s rest .resume (.next ((s.setEvents rest).setEnv { s.env with stalled := false }))

/-- What a step is: CORE's own, the acceptance of a command word, or a move from outside. -/
theorem step_cases (s : State) :
    (∃ es, CoreTurn s es ∧ step s = sequencerStep (s.setEvents es)) ∨
    (∃ w rest, s.seq = .idle ∧ s.events = .command w :: rest ∧ step s = acceptWord w (s.setEvents rest)) ∨
    (∃ e rest, s.events = e :: rest ∧ OutsideMove s rest e (step s)) := by
  have turn : ∀ es, CoreTurn s es → ∃ es, CoreTurn s es ∧ step s = sequencerStep (s.setEvents es) :=
    fun es h => ⟨es, h, step_of_coreTurn h⟩
  cases he : s.events with
  | nil => exact .inl (turn [] (.inl ⟨he, rfl⟩))
  | cons e rest =>
    by_cases hi : s.seq = .idle
    · cases e with
      | command w => exact .inr (.inl ⟨w, rest, hi, rfl, by simp [step, nextMove, he, hi]⟩)
      | core => exact .inl (turn rest (.inr (.inl he)))
      | reset => exact .inr (.inr ⟨_, rest, rfl, by rw [step, nextMove, he]; exact .reset⟩)
      | readStatus => exact .inr (.inr ⟨_, rest, rfl, by rw [step, nextMove, he]; exact .readStatus⟩)
      | readTod => exact .inr (.inr ⟨_, rest, rfl, by rw [step, nextMove, he]; exact .readTod⟩)
      | readRes => exact .inr (.inr ⟨_, rest, rfl, by rw [step, nextMove, he]; exact .readRes⟩)
      | rtcSet r b => exact .inr (.inr ⟨_, rest, rfl, by rw [step, nextMove, he]; exact .rtcSet r b⟩)
      | rtcTick t => exact .inr (.inr ⟨_, rest, rfl, by rw [step, nextMove, he]; exact .rtcTick t⟩)
      | hostBus p => exact .inr (.inr ⟨_, rest, rfl, by simp only [step, nextMove, he, hi, if_true]; exact .hostBus p hi⟩)
      | stall => exact .inr (.inr ⟨_, rest, rfl, by rw [step, nextMove, he]; exact .stall⟩)
      | resume => exact .inr (.inr ⟨_, rest, rfl, by rw [step, nextMove, he]; exact .resume⟩)
    · cases e with
      | command w => exact .inl (turn _ (.inr (.inr ⟨hi, he, .inl ⟨w, rest, rfl⟩⟩)))
      | core => exact .inl (turn rest (.inr (.inl he)))
      | reset => exact .inr (.inr ⟨_, rest, rfl, by rw [step, nextMove, he]; exact .reset⟩)
      | readStatus => exact .inr (.inr ⟨_, rest, rfl, by rw [step, nextMove, he]; exact .readStatus⟩)
      | readTod => exact .inr (.inr ⟨_, rest, rfl, by rw [step, nextMove, he]; exact .readTod⟩)
      | readRes => exact .inr (.inr ⟨_, rest, rfl, by rw [step, nextMove, he]; exact .readRes⟩)
      | rtcSet r b => exact .inr (.inr ⟨_, rest, rfl, by rw [step, nextMove, he]; exact .rtcSet r b⟩)
      | rtcTick t => exact .inr (.inr ⟨_, rest, rfl, by rw [step, nextMove, he]; exact .rtcTick t⟩)
      | hostBus p => exact .inl (turn _ (.inr (.inr ⟨hi, he, .inr ⟨p, rest, rfl⟩⟩)))
      | stall => exact .inr (.inr ⟨_, rest, rfl, by rw [step, nextMove, he]; exact .stall⟩)
      | resume => exact .inr (.inr ⟨_, rest, rfl, by rw [step, nextMove, he]; exact .resume⟩)

/-- Accepting a word: a command's meaning, or the illegal command. -/
theorem acceptWord_cases (w : Word) (s : State) :
    (∃ i, decode w = .instr i ∧ acceptWord w s = exec i s) ∨
    (∃ why, decode w = .illegal why ∧ acceptWord w s = acceptIllegal s) := by
  cases h : decode w with
  | instr i => exact .inl ⟨i, rfl, by simp [acceptWord, h]⟩
  | illegal why => exact .inr ⟨why, rfl, by simp [acceptWord, h]⟩

/-- CORE's own step that makes a call waits while the collaborator does not answer. -/
theorem sequencerStep_stalled {s : State} (h : s.env.stalled = true) (hc : s.seq.makesCall = true) :
    sequencerStep s = .next s := by
  simp [sequencerStep, h, hc]

/-- CORE's own step while the collaborator answers. -/
theorem sequencerStep_running {s : State} (h : s.env.stalled = false) : sequencerStep s = sequencerMove s := by
  simp [sequencerStep, h]

/-- CORE's own step: nothing while a call waits for its answer, otherwise the step of the sequencer state. -/
theorem sequencerStep_cases (s : State) : sequencerStep s = .next s ∨ sequencerStep s = sequencerMove s := by
  by_cases h : s.env.stalled = true ∧ s.seq.makesCall = true
  · exact .inl (sequencerStep_stalled h.1 h.2)
  · exact .inr (by simp only [sequencerStep, h, if_false])

/-- Where CORE's own step can lead: one constructor per outcome of a sequencer state. -/
inductive CoreMove (s : State) : State → Prop where
  | wait : CoreMove s s
  | rdBegin (h : s.seq = .rdBegin) : CoreMove s ((busBegin Config.devAddr s).setSeq .rdPtr)
  | rdPtr (h : s.seq = .rdPtr) : CoreMove s ((busSend Config.ptrStart s).setSeq .rdEnd)
  | rdEnd (h : s.seq = .rdEnd) (ha : answerAck s = true) : CoreMove s ((busEnd s).setSeq .rdReq)
  | rdNack (h : s.seq = .rdEnd) (ha : answerAck s = false) :
      CoreMove s (raiseCondition .transportFailure detailNack (busEnd s))
  | rdReq (h : s.seq = .rdReq) (hn : answerCount 7 s ≤ 7) :
      CoreMove s (((busRequest Config.devAddr 7 s).startReceive (BitVec.ofNat 3 (answerCount 7 s))).setSeq
        (if answerCount 7 s = 0 then .rdFin else .rdRecv))
  | rdRecv (h : s.seq = .rdRecv) :
      CoreMove s (((busReceive s).receiveInto (answerByte s)).setSeq (if s.rxi + 1#3 = s.rxn then .rdFin else .rdRecv))
  | rdShort (h : s.seq = .rdFin) (hn : s.rxn.toNat < 7) :
      CoreMove s (raiseCondition .transportFailure detailShort s)
  | rdBad (h : s.seq = .rdFin) (hn : s.rxn.toNat = 7) (hh : s.hourMode = .h24) (hd : readDetail s ≠ 0#3) :
      CoreMove s (raiseCondition .malformedRegisterData (readDetail s) s)
  | rdOk (h : s.seq = .rdFin) (hn : s.rxn.toNat = 7) (hh : s.hourMode = .h24) (hd : readDetail s = 0#3) :
      CoreMove s (complete .ok 0#3 (s.setTod (dec8 (rawHours s)) (dec8 (rawMinutes s)) (dec8 (rawSeconds s))))
  | wrBegin (h : s.seq = .wrBegin) : CoreMove s ((busBegin Config.devAddr s).setSeq .wrPtr)
  | wrPtr (h : s.seq = .wrPtr) : CoreMove s ((busSend Config.ptrStart s).setSeq .wrS)
  | wrS (h : s.seq = .wrS) : CoreMove s ((busSend s.opdS s).setSeq .wrM)
  | wrM (h : s.seq = .wrM) : CoreMove s ((busSend s.opdM s).setSeq .wrH)
  | wrH (h : s.seq = .wrH) : CoreMove s ((busSend s.opdH s).setSeq .wrEnd)
  | wrEnd (h : s.seq = .wrEnd) (ha : answerAck s = true) : CoreMove s (complete .ok 0#3 (busEnd s))
  | wrNack (h : s.seq = .wrEnd) (ha : answerAck s = false) :
      CoreMove s (raiseCondition .transportFailure detailNack (loseWrite (busEnd s)))

/-- Every next state of CORE's own step is one of `CoreMove`. -/
theorem CoreMove.of_sequencerStep {s t : State} (h : sequencerStep s = .next t) : CoreMove s t := by
  rcases sequencerStep_cases s with e | e <;> rw [e] at h
  · cases h; exact .wait
  · unfold sequencerMove at h
    split at h <;> rename_i hq
    · cases h; exact .wait
    · cases h; exact .rdBegin hq
    · cases h; exact .rdPtr hq
    · unfold stepRdEnd at h
      split at h <;> rename_i ha <;> cases h
      · exact .rdEnd hq ha
      · exact .rdNack hq (by simpa using ha)
    · unfold stepRdReq at h
      split at h <;> rename_i hn <;> cases h
      exact .rdReq hq (not_lt.1 hn)
    · cases h; exact .rdRecv hq
    · unfold stepRdFin at h
      split at h <;> rename_i hn
      · cases h; exact .rdShort hq hn
      · have hlt := s.rxn.isLt
        have h7 : s.rxn.toNat = 7 := by simp only [Config.readCount] at hn; omega
        split at h <;> rename_i hh <;> cases h
        by_cases hd : readDetail s = 0#3
        · rw [validateRead, if_neg (by simpa using hd)]; exact .rdOk hq h7 hh hd
        · rw [validateRead, if_pos hd]; exact .rdBad hq h7 hh hd
    · cases h; exact .wrBegin hq
    · cases h; exact .wrPtr hq
    · cases h; exact .wrS hq
    · cases h; exact .wrM hq
    · cases h; exact .wrH hq
    · unfold stepWrEnd at h
      split at h <;> rename_i ha <;> cases h
      · exact .wrEnd hq ha
      · exact .wrNack hq (by simpa using ha)

/-- Where accepting a word in an idle CORE can lead. -/
inductive Acceptance (w : Word) (s : State) : State → Prop where
  | enc (v : Byte) (hw : decode w = .instr (.enc v)) (hv : v.toNat ≤ 99) :
      Acceptance w s (complete .ok 0#3 (s.setRes (enc8 v)))
  | dec (b : Byte) (hw : decode w = .instr (.dec b)) (hb : bcdOk b = true) :
      Acceptance w s (complete .ok 0#3 (s.setRes (dec8 b)))
  | badOperand (d : BitVec 3) (hd : d ≠ 0#3) : Acceptance w s (raiseCondition .invalidArgument d s)
  | badNibble (d : BitVec 3) (hd : d ≠ 0#3) : Acceptance w s (raiseCondition .malformedRegisterData d s)
  | illegal : Acceptance w s (raiseCondition .illegalCommand 0#3 s)
  | gettime (hw : decode w = .instr .gettime) (hh : s.hourMode = .h24) : Acceptance w s (beginSequence .rdBegin s)
  | settime (h m sec : Byte) (hw : decode w = .instr (.settime h m sec)) (ht : IsTimeOfDay h m sec) :
      Acceptance w s (beginSequence .wrBegin (s.setOpd (enc8 h) (enc8 m) (enc8 sec)))

/-- Every next state of accepting a word in an idle CORE is one of `Acceptance`. -/
theorem Acceptance.of_acceptWord {w : Word} {s t : State} (hi : s.seq = .idle) (h : acceptWord w s = .next t) :
    Acceptance w s t := by
  rcases acceptWord_cases w s with ⟨i, hw, e⟩ | ⟨why, -, e⟩ <;> rw [e] at h
  · cases i with
    | enc v =>
      simp only [exec, execEnc, whenIdle_idle hi] at h
      split at h <;> cases h
      · exact .badOperand _ (by decide)
      · exact .enc v hw (by omega)
    | dec b =>
      simp only [exec, execDec, whenIdle_idle hi] at h
      split at h <;> cases h
      · exact .badNibble _ ‹_›
      · exact .dec b hw ((detailNibbles_eq_zero b).1 (by rename_i hd; simpa using hd))
    | gettime =>
      simp only [exec, execGettime, whenIdle_idle hi] at h
      split at h <;> cases h
      exact .gettime hw ‹_›
    | settime a b c =>
      simp only [exec, execSettime, whenIdle_idle hi] at h
      split at h <;> cases h
      · exact .badOperand _ ‹_›
      · exact .settime a b c hw ((detailTime_eq_zero a b c).1 (by rename_i hd; simpa using hd))
  · rw [acceptIllegal, whenIdle_idle hi] at h
    cases h
    exact .illegal

/-! ### Runs -/

/-- A run of k + 1 steps whose first leads to t is a run of k steps from t. -/
theorem run_step {M : Host.Core} {k : Nat} {s t : M.State} (h : M.step s = .next t) : M.run (k + 1) s = M.run k t := by
  simp [Host.Core.run, h]

/-- A run of a + b steps whose first a lead to t is a run of b steps from t. -/
theorem run_append {M : Host.Core} {a b : Nat} {s t : M.State} (h : M.run a s = .next t) :
    M.run (a + b) s = M.run b t := by
  induction a generalizing s with
  | zero =>
    simp [Host.Core.run] at h
    simp [h]
  | succ a ih =>
    rw [show a + 1 + b = (a + b) + 1 by omega]
    simp only [Host.Core.run] at h ⊢
    cases hx : M.step s with
    | next s' =>
      simp only [hx] at h ⊢
      exact ih h
    | fault f => simp [hx] at h
    | refused f => simp [hx] at h

/-- `run_step` for this machine. -/
theorem run_succ {k : Nat} {s t : State} (h : step s = .next t) :
    Host.Core.run Sys2Proof.core (k + 1) s = Host.Core.run Sys2Proof.core k t := run_step (M := Sys2Proof.core) h

/-- `run_append` for this machine. -/
theorem run_add {a : Nat} (b : Nat) {s t : State} (h : Host.Core.run Sys2Proof.core a s = .next t) :
    Host.Core.run Sys2Proof.core (a + b) s = Host.Core.run Sys2Proof.core b t := run_append (M := Sys2Proof.core) h

end Sys2Proof.Machine
end

