-- ==== Sys2Proof/Laws/Encoding.lean ====
section
/-! SUPPORT. The command words as numbers: what the encoder's words, the fields and the rows of the opcode map (30_encoding
rules R81, R84) are in terms of `toNat`, so that a proof about encodings is arithmetic. -/

namespace Sys2Proof

/-- Appending a byte below is multiplying by 256 and adding. -/
theorem toNat_append_byte {n : Nat} (x : BitVec n) (b : Byte) : (x ++ b).toNat = x.toNat * 256 + b.toNat := by
  have hb := b.isLt
  rw [BitVec.toNat_append, Nat.shiftLeft_eq, Nat.mul_comm]
  exact (Nat.two_pow_add_eq_or_of_lt hb x.toNat).symm ▸ by omega

theorem encode_enc_toNat (v : Byte) : (encode (.enc v)).toNat = 0x10000000 + v.toNat := by
  have h := toNat_append_byte (0x1#4 ++ 0#20 : BitVec 24) v
  have h0 : (0x1#4 ++ 0#20 : BitVec 24).toNat = 0x100000 := by decide
  rw [h0] at h
  exact h

theorem encode_dec_toNat (b : Byte) : (encode (.dec b)).toNat = 0x20000000 + b.toNat := by
  have h := toNat_append_byte (0x2#4 ++ 0#20 : BitVec 24) b
  have h0 : (0x2#4 ++ 0#20 : BitVec 24).toNat = 0x200000 := by decide
  rw [h0] at h
  exact h

theorem encode_gettime_toNat : (encode .gettime).toNat = 0x30000000 := by decide

theorem encode_settime_toNat (h m s : Byte) :
    (encode (.settime h m s)).toNat = 0x40000000 + h.toNat * 65536 + m.toNat * 256 + s.toNat := by
  have h0 : (0x4#4 ++ 0#4 : Byte).toNat = 0x40 := by decide
  have h1 := toNat_append_byte (0x4#4 ++ 0#4 : Byte) h
  have h2 := toNat_append_byte ((0x4#4 ++ 0#4 : Byte) ++ h : BitVec 16) m
  have h3 := toNat_append_byte (((0x4#4 ++ 0#4 : Byte) ++ h : BitVec 16) ++ m : BitVec 24) s
  have h4 : (encode (.settime h m s)).toNat = ((0x40 * 256 + h.toNat) * 256 + m.toNat) * 256 + s.toNat := by
    rw [h0] at h1
    rw [← h1]
    exact h3.trans (congrArg (· * 256 + s.toNat) h2)
  omega

theorem fieldOp_toNat (w : Word) : (fieldOp w).toNat = w.toNat / 2 ^ 28 := by
  have := w.isLt
  simp only [fieldOp, BitVec.extractLsb'_toNat, Nat.shiftRight_eq_div_pow]
  omega

theorem fieldF0_toNat (w : Word) : (fieldF0 w).toNat = w.toNat % 256 := by
  simp [fieldF0, BitVec.extractLsb'_toNat]

theorem fieldF1_toNat (w : Word) : (fieldF1 w).toNat = w.toNat / 256 % 256 := by
  simp [fieldF1, BitVec.extractLsb'_toNat, Nat.shiftRight_eq_div_pow]

theorem fieldF2_toNat (w : Word) : (fieldF2 w).toNat = w.toNat / 65536 % 256 := by
  simp [fieldF2, BitVec.extractLsb'_toNat, Nat.shiftRight_eq_div_pow]

/-- Masking off the k low bits keeps exactly the number above them. -/
theorem and_highMask_eq_iff (w value : Word) (k : Nat) (hv : value.toNat % 2 ^ k = 0) :
    w &&& (BitVec.allOnes 32 <<< k) = value ↔ w.toNat / 2 ^ k = value.toNat / 2 ^ k := by
  have key : w &&& (BitVec.allOnes 32 <<< k) = (w >>> k) <<< k := by
    apply BitVec.eq_of_getLsbD_eq
    intro i hi
    by_cases h : i < k
    · simp [h]
    · have hk : k + (i - k) = i := by omega
      have hlt : i - k < 32 := by omega
      rw [BitVec.getLsbD_and, BitVec.getLsbD_shiftLeft, BitVec.getLsbD_allOnes, BitVec.getLsbD_shiftLeft,
        BitVec.getLsbD_ushiftRight, hk]
      simp [hi, h, hlt]
  have hw := w.isLt
  have hlt : w.toNat / 2 ^ k * 2 ^ k < 2 ^ 32 := lt_of_le_of_lt (Nat.div_mul_le_self _ _) hw
  have hval := Nat.div_mul_cancel (Nat.dvd_of_mod_eq_zero hv)
  rw [key, ← BitVec.toNat_inj, BitVec.toNat_shiftLeft, BitVec.toNat_ushiftRight, Nat.shiftRight_eq_div_pow,
    Nat.shiftLeft_eq, Nat.mod_eq_of_lt hlt]
  constructor
  · intro h
    have := congrArg (· / 2 ^ k) h
    simpa using this
  · intro h
    rw [h, hval]

theorem rowEnc_selects (w : Word) : rowEnc.selects w = true ↔ w.toNat / 256 = 0x100000 := by
  have hm : (0xFFFFFF00#32 : Word) = BitVec.allOnes 32 <<< 8 := by decide
  have h := and_highMask_eq_iff w 0x10000000#32 8 (by decide)
  rw [← hm] at h
  simpa [OpRow.selects, rowEnc] using h

theorem rowDec_selects (w : Word) : rowDec.selects w = true ↔ w.toNat / 256 = 0x200000 := by
  have hm : (0xFFFFFF00#32 : Word) = BitVec.allOnes 32 <<< 8 := by decide
  have h := and_highMask_eq_iff w 0x20000000#32 8 (by decide)
  rw [← hm] at h
  simpa [OpRow.selects, rowDec] using h

theorem rowGettime_selects (w : Word) : rowGettime.selects w = true ↔ w.toNat = 0x30000000 := by
  have hm : (0xFFFFFFFF#32 : Word) = BitVec.allOnes 32 <<< 0 := by decide
  have h := and_highMask_eq_iff w 0x30000000#32 0 (by decide)
  rw [← hm] at h
  simpa [OpRow.selects, rowGettime] using h

theorem rowSettime_selects (w : Word) : rowSettime.selects w = true ↔ w.toNat / 2 ^ 24 = 0x40 := by
  have hm : (0xFF000000#32 : Word) = BitVec.allOnes 32 <<< 24 := by decide
  have h := and_highMask_eq_iff w 0x40000000#32 24 (by decide)
  rw [← hm] at h
  simpa [OpRow.selects, rowSettime] using h

/-- What a word decodes to, as arithmetic on its number (R85). -/
theorem decode_cases (w : Word) :
    (w.toNat / 256 = 0x100000 ∧ decode w = .instr (.enc (fieldF0 w))) ∨
    (w.toNat / 256 = 0x200000 ∧ decode w = .instr (.dec (fieldF0 w))) ∨
    (w.toNat = 0x30000000 ∧ decode w = .instr .gettime) ∨
    (w.toNat / 2 ^ 24 = 0x40 ∧ decode w = .instr (.settime (fieldF2 w) (fieldF1 w) (fieldF0 w))) ∨
    (w.toNat / 256 ≠ 0x100000 ∧ w.toNat / 256 ≠ 0x200000 ∧ w.toNat ≠ 0x30000000 ∧ w.toNat / 2 ^ 24 ≠ 0x40 ∧
      decode w = .illegal (illegalWhy w)) := by
  have h1 := rowEnc_selects w
  have h2 := rowDec_selects w
  have h3 := rowGettime_selects w
  have h4 := rowSettime_selects w
  unfold decode
  by_cases e1 : rowEnc.selects w = true
  · exact .inl ⟨h1.1 e1, by simp [e1]⟩
  · by_cases e2 : rowDec.selects w = true
    · exact .inr (.inl ⟨h2.1 e2, by simp [e1, e2]⟩)
    · by_cases e3 : rowGettime.selects w = true
      · exact .inr (.inr (.inl ⟨h3.1 e3, by simp [e1, e2, e3]⟩))
      · by_cases e4 : rowSettime.selects w = true
        · exact .inr (.inr (.inr (.inl ⟨h4.1 e4, by simp [e1, e2, e3, e4]⟩)))
        · refine .inr (.inr (.inr (.inr ⟨?_, ?_, ?_, ?_, by simp [e1, e2, e3, e4]⟩)))
          · exact fun h => e1 (h1.2 h)
          · exact fun h => e2 (h2.2 h)
          · exact fun h => e3 (h3.2 h)
          · exact fun h => e4 (h4.2 h)

end Sys2Proof
end

