-- ==== Sys2Proof/Laws/PerInstr.lean ====
section
/-! SUPPORT. Statements for all instructions, one lemma per constructor. RowMatch: the word the encoder gives a command
carries the fixed bits of the command's row of the opcode map (30_encoding rule R84). -/

namespace Sys2Proof.Laws

/-- The command's word selects its own row. -/
def RowMatch.Statement (i : Instr) : Prop := i.row.selects (encode i) = true

theorem RowMatch.enc (v : Byte) : RowMatch.Statement (.enc v) := by
  have hm : (0xFFFFFF00#32 : Word) = BitVec.allOnes 24 ++ 0#8 := by decide
  have h : encode (.enc v) &&& 0xFFFFFF00#32 = 0x10000000#32 := by
    rw [hm, encode, BitVec.and_append]
    simp
  simpa [RowMatch.Statement, Instr.row, OpRow.selects, rowEnc] using h

theorem RowMatch.dec (b : Byte) : RowMatch.Statement (.dec b) := by
  have hm : (0xFFFFFF00#32 : Word) = BitVec.allOnes 24 ++ 0#8 := by decide
  have h : encode (.dec b) &&& 0xFFFFFF00#32 = 0x20000000#32 := by
    rw [hm, encode, BitVec.and_append]
    simp
  simpa [RowMatch.Statement, Instr.row, OpRow.selects, rowDec] using h

theorem RowMatch.gettime : RowMatch.Statement .gettime := by
  unfold RowMatch.Statement
  decide

theorem RowMatch.settime (h m s : Byte) : RowMatch.Statement (.settime h m s) := by
  have hm : (0xFF000000#32 : Word) = ((BitVec.allOnes 8 ++ 0#8 : BitVec 16) ++ 0#8 : BitVec 24) ++ 0#8 := by decide
  have hw : encode (.settime h m s) &&& 0xFF000000#32 = 0x40000000#32 := by
    rw [hm, encode, BitVec.and_append, BitVec.and_append, BitVec.and_append]
    simp
  simpa [RowMatch.Statement, Instr.row, OpRow.selects, rowSettime] using hw

end Sys2Proof.Laws
end

