-- ==== Sys2Proof/Tests/Slice0.lean ====
section
/-! SUPPORT. Tests. Expected values are the spec's (95_test_vectors, whose part each test names) or worked out by hand from
the rule cited. The witnesses show, for each obligation with hypotheses, a state and operands that meet all of them. -/

open Sys2Proof Sys2Proof.Machine

namespace Sys2Proof.Tests

/-! ### Well-formedness: an ill-formed line for each check (R89) -/

theorem test_enc_256_refused : (AsmLine.enc 256).wellFormed = false := by decide

theorem test_dec_256_refused : (AsmLine.dec 256).wellFormed = false := by decide

theorem test_settime_hours_256_refused : (AsmLine.settime 256 0 0).wellFormed = false := by decide

theorem test_settime_minutes_256_refused : (AsmLine.settime 0 256 0).wellFormed = false := by decide

theorem test_settime_seconds_256_refused : (AsmLine.settime 0 0 256).wellFormed = false := by decide

theorem test_word_33_bits_refused : (AsmLine.word 0x100000000).wellFormed = false := by decide

theorem test_largest_operands_taken :
    (AsmLine.settime 255 255 255).wellFormed = true ∧ (AsmLine.word 0xFFFFFFFF).wellFormed = true := by decide

/-! ### Decoding: words written out bit by bit from R84's patterns -/

/-- ENC: `0001`, twenty zeros, v = 59 = 0011 1011 (W2, 0x1000003B). -/
theorem test_decode_enc : decode 0b0001_0000_0000_0000_0000_0000_0011_1011#32 = .instr (.enc 59#8) := by decide

/-- DEC: `0010`, twenty zeros, b = 0x6A (W3, 0x2000006A). -/
theorem test_decode_dec : decode 0b0010_0000_0000_0000_0000_0000_0110_1010#32 = .instr (.dec 0x6A#8) := by decide

/-- GETTIME: `0011` and zeros (L2.1). -/
theorem test_decode_gettime : decode 0b0011_0000_0000_0000_0000_0000_0000_0000#32 = .instr .gettime := by decide

/-- SETTIME: `0100`, four zeros, h = 23, m = 59, s = 58: the three fields apart (R83, R84). -/
theorem test_decode_settime :
    decode 0b0100_0000_0001_0111_0011_1011_0011_1010#32 = .instr (.settime 23#8 59#8 58#8) := by decide

/-- Illegal words of L2.1: reserved OPs, and each command's must-be-0 bits. -/
theorem test_decode_illegal :
    [0x00000000#32, 0x50000000#32, 0x80000000#32, 0xF0000000#32, 0xFFFFFFFF#32].map decode
      = List.replicate 5 (.illegal .reservedOp) ∧
    [0x10000100#32, 0x11000000#32, 0x1FFFFFFF#32, 0x20010000#32, 0x30000001#32, 0x30000100#32, 0x38000000#32,
      0x41000000#32, 0x4F000000#32].map decode = List.replicate 9 (.illegal .mustBeZeroBit) := by decide

/-- The assembler's number for the line of W5 (R89). -/
theorem test_assemble_settime : (AsmLine.settime 6 6 30).assemble = some 0x4006061E#32 := by decide

/-- W6's line with its comment, and a line that is a comment only (P3). -/
theorem test_read_line :
    readLine "        SETTIME 0, 6, 30   ; 0x4000061E".toList = .line (.settime 0 6 30) ∧
    readLine "        ; environment: tick 2".toList = .blank ∧ readLine "SETTIME 0 6 30".toList = .unknown := by decide

/-- The host's question, for a row of 32 bits. -/
theorem test_decode_table_word : decodeTableWord 32 0x4006061E = some (.settime 6#8 6#8 30#8) := by decide

/-! ### Small states -/

/-- The next state of an outcome, if it has one. -/
def after (o : Outcome) : Option State :=
  match o with
  | .next t => some t
  | .fault _ => none
  | .refused _ => none

/-- The bytes of registers 0 to 6 in L2.4's first row. -/
def listedBytes : List Byte := [0x30#8, 0x06#8, 0x06#8, 0x00#8, 0x00#8, 0x00#8, 0x00#8]

/-- From reset, an idle CORE before which the events es lie, with answers listed. -/
def idleWith (es : List Event) : State :=
  { State.reset with events := es, env := { Env.initial with acks := [true], counts := [7], bytes := listedBytes } }

/-- From reset, CORE in sequencer state q with nothing from outside, and answers listed. -/
def busyAt (q : SeqState) : State :=
  { idleWith [] with seq := q, code := .pending, rtc := { Rtc.initial with writeOpen := true, firstByte := false } }

/-- As `busyAt`, in RD_FIN with n bytes received and the first three given. -/
def readDone (n : BitVec 3) (b0 b1 b2 : Byte) : State :=
  { busyAt .rdFin with rxn := n, rxi := n, rxb0 := b0, rxb1 := b1, rxb2 := b2 }

/-! ### One step each -/

/-- `ENC 59` from reset: RES 0x59, STATUS 0x0401 (L2.2). -/
theorem test_enc_59 :
    (after (step (State.reset.withFetchWord 32 0x1000003B))).map (fun t => (t.res, t.statusPort))
      = some (0x59#8, 0x0401#16) := by decide

/-- `ENC 100`: STATUS 0x0012, RES not written (L2.2). -/
theorem test_enc_100 :
    (after (step (State.reset.withFetchWord 32 0x10000064))).map (fun t => (t.resv, t.statusPort))
      = some (false, 0x0012#16) := by decide

/-- `DEC 0x99`: RES 99, STATUS 0x0401 (L2.3). -/
theorem test_dec_99 :
    (after (step (State.reset.withFetchWord 32 0x20000099))).map (fun t => (t.res, t.statusPort))
      = some (99#8, 0x0401#16) := by decide

/-- `DEC 0xA9`: only the tens nibble is out of range, STATUS 0x0023 (L2.3). -/
theorem test_dec_A9 :
    (after (step (State.reset.withFetchWord 32 0x200000A9))).map (fun t => (t.resv, t.statusPort))
      = some (false, 0x0023#16) := by decide

/-- GETTIME's acceptance: RD_BEGIN, STATUS 0x0107 (L2.6). -/
theorem test_gettime_accepted :
    (after (step (State.reset.withFetchWord 32 0x30000000))).map (fun t => (t.seq, t.statusPort, t.calls))
      = some (.rdBegin, 0x0107#16, []) := by decide

/-- SETTIME 6, 6, 30: OPD 0x30, 0x06, 0x06 and STATUS 0x0107 (L2.6). -/
theorem test_settime_accepted :
    (after (step (State.reset.withFetchWord 32 0x4006061E))).map
        (fun t => (t.seq, t.opdS, t.opdM, t.opdH, t.statusPort))
      = some (.wrBegin, 0x30#8, 0x06#8, 0x06#8, 0x0107#16) := by decide

/-- SETTIME 24, 0, 0: INVALID_ARGUMENT 0b100, STATUS 0x0042, no bus call (L2.5). -/
theorem test_settime_hours_24 :
    (after (step (State.reset.withFetchWord 32 0x40180000))).map (fun t => (t.seq, t.calls, t.statusPort))
      = some (.idle, [], 0x0042#16) := by decide

/-- An illegal word: STATUS 0x0005 (P5). -/
theorem test_illegal_word :
    (after (step (State.reset.withFetchWord 32 0x30000001))).map (·.statusPort) = some 0x0005#16 := by decide

/-- A read of 0xC2, 0x06, 0x06: TOD (6, 6, 42), STATUS 0x0201 (W4). -/
theorem test_read_C2 :
    (after (step (readDone 7#3 0xC2#8 0x06#8 0x06#8))).map (fun t => (t.todH, t.todM, t.todS, t.statusPort))
      = some (6#8, 6#8, 42#8, 0x0201#16) := by decide

/-- "tick 2" on a seconds byte 0x30 gives 0x32 (P3). -/
theorem test_tick_2 : tickedSeconds 0x30#8 2 = 0x32#8 := by decide

/-- A count of 8: COLLABORATOR_COUNT (L2.4). -/
theorem test_count_8 :
    step { busyAt .rdReq with env := { Env.initial with counts := [8] } } = .fault .collaboratorCount := by rfl

/-- Reading `tod` from reset: UNWRITTEN_TOD (L2.6). -/
theorem test_read_tod_unwritten : step (idleWith [.readTod]) = .fault .unwrittenTod := by rfl

/-! ### Witnesses: each obligation's hypotheses are met, each clause at a boundary -/

theorem test_witness_enc :
    State.reset.seq = .idle ∧ (99#8 : Byte).toNat ≤ 99 ∧ 99 < (100#8 : Byte).toNat := by decide

theorem test_witness_dec :
    State.reset.seq = .idle ∧ ((0x99#8 : Byte).toNat / 16 ≤ 9 ∧ (0x99#8 : Byte).toNat % 16 ≤ 9) ∧
    ¬ ((0x9A#8 : Byte).toNat / 16 ≤ 9 ∧ (0x9A#8 : Byte).toNat % 16 ≤ 9) ∧
    ¬ ((0xA9#8 : Byte).toNat / 16 ≤ 9 ∧ (0xA9#8 : Byte).toNat % 16 ≤ 9) := by decide

/-- `CodecFunctionsObeyTheirLaws` and `EncThenDecRestoresTheValue`. -/
theorem test_witness_codec_laws :
    State.reset.seq = .idle ∧ (99#8 : Byte).toNat ≤ 99 ∧ bcdOk 0x99#8 = true ∧ (39#8 : Byte).toNat ≤ 39 ∧
    enc8 99#8 = enc8 99#8 := by decide

/-- `EncodeUndoesDecode` and `DecodeFollowsTheOpcodeMap`. -/
theorem test_witness_decodes :
    decode 0x40FFFFFF#32 = .instr (.settime 255#8 255#8 255#8) ∧ rowSettime ∈ opRows ∧
    0x40FFFFFF#32 &&& rowSettime.mask = rowSettime.value := by decide

/-- `StepRunsTheDecodedCommand`. -/
theorem test_witness_words :
    (idleWith [.command 0x100000FF#32]).seq = .idle ∧
    (idleWith [.command 0x100000FF#32]).events = .command 0x100000FF#32 :: [] ∧
    decode 0x100000FF#32 = .instr (.enc 255#8) := by decide

/-- `IllegalWordChangesOnlyStatus`: each clause of the illegal words' form, at its boundary bits. -/
theorem test_witness_illegal_words :
    (idleWith [.command 0x50000000#32]).seq = .idle ∧
    (idleWith [.command 0x50000000#32]).events = .command 0x50000000#32 :: [] ∧
    IllegalForm 0x00000000#32 ∧ IllegalForm 0x50000000#32 ∧ IllegalForm 0x10000100#32 ∧ IllegalForm 0x18000000#32 ∧
    IllegalForm 0x20000100#32 ∧ IllegalForm 0x30000001#32 ∧ IllegalForm 0x41000000#32 ∧ IllegalForm 0x48000000#32 ∧
    ¬ IllegalForm 0x100000FF#32 ∧ ¬ IllegalForm 0x30000000#32 ∧ ¬ IllegalForm 0x40FFFFFF#32 := by
  unfold IllegalForm
  refine ⟨rfl, rfl, ?_, ?_, ?_, ?_, ?_, ?_, ?_, ?_, ?_, ?_, ?_⟩ <;> decide

/-- `BusyCoreHoldsTheWord`: a busy CORE with a word waiting, whose step gives a next state. -/
theorem test_witness_busy :
    ({ busyAt .wrS with events := [.command 0x30000000#32] } : State).seq ≠ .idle ∧
    (after (step { busyAt .wrS with events := [.command 0x30000000#32] })).isSome = true := by decide

/-- `IdleCoreWaits`. -/
theorem test_witness_waits : (idleWith []).seq = .idle ∧ (idleWith []).events = [] ∧ (idleWith [.core]).events = .core :: [] := by
  decide

/-- `CommandsKeepEverythingElse`: each command has a next state, and each excluded form is met by another command. -/
theorem test_witness_commands :
    [Instr.enc 99#8, .dec 0x99#8, .gettime, .settime 23#8 59#8 59#8].all
      (fun i => (after (exec i (idleWith []))).isSome) = true := by decide

/-- `GettimeBeginsTheReadSequence`, and the first clause of `OnlyGettimeIn12HourModeIsRefused`. -/
theorem test_witness_hour_modes :
    State.reset.seq = .idle ∧ State.reset.hourMode = .h24 ∧ ({ State.reset with hourMode := .h12 } : State).hourMode = .h12 := by
  decide

/-- CORE's turn: with nothing from outside, with a turn listed, and with a word held. -/
theorem test_witness_core_turn :
    CoreTurn (busyAt .rdBegin) [] ∧ CoreTurn { busyAt .rdBegin with events := [.core, .reset] } [.reset] ∧
    CoreTurn { busyAt .rdBegin with events := [.command 0x30000000#32] } [.command 0x30000000#32] :=
  ⟨.inl ⟨rfl, rfl⟩, .inr (.inl rfl), .inr (.inr ⟨by decide, rfl, .inl ⟨_, _, rfl⟩⟩)⟩

/-- As `busyAt`, before the first byte of a transaction. -/
def opening (q : SeqState) : State := { busyAt q with rtc := { Rtc.initial with writeOpen := true, firstByte := true } }

/-- `ReadSequenceOpensWithThePointerWrite`, `WriteSequenceOpensWithThePointer`: both clauses of each (q is RD_BEGIN, RD_PTR,
WR_BEGIN, WR_PTR). -/
theorem test_witness_opens (q : SeqState) :
    CoreTurn (opening q) [] ∧ (opening q).env.stalled = false ∧ (opening q).seq = q ∧ (opening q).rtc.firstByte = true :=
  ⟨.inl ⟨rfl, rfl⟩, rfl, rfl, rfl⟩

/-- `UnacknowledgedPointerWriteEndsGettime` and `WriteEndsByItsAcknowledgment`: acknowledged, and not. -/
theorem test_witness_acks :
    CoreTurn (busyAt .rdEnd) [] ∧ CoreTurn (busyAt .wrEnd) [] ∧ (busyAt .wrEnd).env.stalled = false ∧
    answerAck (busyAt .rdEnd) = true ∧
    answerAck { busyAt .rdEnd with env := { Env.initial with acks := [false] } } = false :=
  ⟨.inl ⟨rfl, rfl⟩, .inl ⟨rfl, rfl⟩, rfl, rfl, rfl⟩

/-- `ReadRequestTakesTheCount`: counts 0, 7 and 8. -/
theorem test_witness_counts :
    CoreTurn (busyAt .rdReq) [] ∧ (busyAt .rdReq).env.stalled = false ∧ answerCount 7 (busyAt .rdReq) = 7 ∧
    answerCount 7 { busyAt .rdReq with env := { Env.initial with counts := [0] } } = 0 ∧
    7 < answerCount 7 { busyAt .rdReq with env := { Env.initial with counts := [8] } } :=
  ⟨.inl ⟨rfl, rfl⟩, rfl, rfl, rfl, by decide⟩

/-- `ReceiveKeepsTheFirstThreeBytes`: the first byte, and the last of seven. -/
theorem test_witness_receives :
    CoreTurn { busyAt .rdRecv with rxn := 7#3, rxi := 6#3 } [] ∧ (busyAt .rdRecv).env.stalled = false ∧
    ({ busyAt .rdRecv with rxn := 7#3, rxi := 6#3 } : State).rxi.toNat < 7 ∧
    ({ busyAt .rdRecv with rxn := 1#3 } : State).rxi.toNat < 1 :=
  ⟨.inl ⟨rfl, rfl⟩, rfl, by decide, by decide⟩

/-- `ReadCompletesByValidation`: six bytes, and seven with each field at its boundary. -/
theorem test_witness_completes :
    CoreTurn (readDone 6#3 0#8 0#8 0#8) [] ∧ (readDone 6#3 0#8 0#8 0#8).rxn.toNat < 7 ∧
    CoreTurn (readDone 7#3 0xD9#8 0x59#8 0x23#8) [] ∧ (readDone 7#3 0xD9#8 0x59#8 0x23#8).rxn.toNat = 7 ∧
    (readDone 7#3 0xD9#8 0x59#8 0x23#8).hourMode = .h24 ∧
    (after (step (readDone 7#3 0xD9#8 0x59#8 0x23#8))).map (·.statusPort) = some 0x0201#16 ∧
    (after (step (readDone 7#3 0x60#8 0x60#8 0x24#8))).map (·.statusPort) = some 0x0073#16 :=
  ⟨.inl ⟨rfl, rfl⟩, by decide, .inl ⟨rfl, rfl⟩, by decide, rfl, by decide, by decide⟩

/-- `ClockHaltBitDoesNotMatter` and `ReadResultIgnoresOldRegisters`: two states that differ in TOD. -/
theorem test_witness_two_reads :
    (readDone 7#3 0x42#8 0x06#8 0x06#8).seq = .rdFin ∧ (readDone 7#3 0x42#8 0x06#8 0x06#8).hourMode = .h24 ∧
    (after (sequencerStep (readDone 7#3 0x42#8 0x06#8 0x06#8))).map (·.code) = some .ok ∧
    (after (sequencerStep { readDone 7#3 0x42#8 0x06#8 0x06#8 with todS := 9#8 })).map (·.code) = some .ok := by decide

/-- `FullReadTakesThirteenSteps` and `GettimeEndsForEveryEnvironment`. -/
theorem test_witness_full_read :
    (idleWith [.command 0x30000000#32]).seq = .idle ∧ (idleWith [.command 0x30000000#32]).hourMode = .h24 ∧
    (idleWith [.command 0x30000000#32]).env.stalled = false ∧
    (idleWith [.command 0x30000000#32]).events = [.command 0x30000000#32] ∧
    (idleWith [.command 0x30000000#32]).env.acks = true :: [] ∧
    (idleWith [.command 0x30000000#32]).env.counts = 7 :: [] ∧
    (idleWith [.command 0x30000000#32]).env.bytes
      = 0x30#8 :: 0x06#8 :: 0x06#8 :: 0x00#8 :: 0x00#8 :: 0x00#8 :: 0x00#8 :: [] ∧
    (∀ n ∈ (idleWith [.command 0x30000000#32]).env.counts, n ≤ 7) := by decide

/-- The two outcomes of `FullReadTakesThirteenSteps`: a time of day, and minutes 0x5A. -/
theorem test_witness_full_read_clauses :
    (dec8 0x23#8).toNat ≤ Config.maxH ∧ (dec8 0x59#8).toNat ≤ Config.maxM ∧
    (dec8 (0xD9#8 &&& 0x7F#8)).toNat ≤ Config.maxS ∧ bcdOk 0x23#8 = true ∧ bcdOk 0x59#8 = true ∧
    bcdOk (0xD9#8 &&& 0x7F#8) = true ∧ bcdOk 0x5A#8 = false := by decide

/-- A GETTIME waits and the environment answers so. -/
def reading (acks : List Bool) (counts : List Nat) : State :=
  { idleWith [.command 0x30000000#32] with env := { Env.initial with acks := acks, counts := counts } }

/-- `ShortReadTakesSixStepsAndItsBytes`, at 0 and 6 bytes. -/
theorem test_witness_short_read :
    (reading [true] [6]).seq = .idle ∧ (reading [true] [6]).hourMode = .h24 ∧ (reading [true] [6]).env.stalled = false ∧
    (reading [true] [6]).events = [.command 0x30000000#32] ∧ 6 < 7 ∧ (reading [true] [6]).env.acks = true :: [] ∧
    (reading [true] [6]).env.counts = 6 :: [] ∧
    (reading [true] [0]).seq = .idle ∧ (reading [true] [0]).hourMode = .h24 ∧ (reading [true] [0]).env.stalled = false ∧
    (reading [true] [0]).events = [.command 0x30000000#32] ∧ (reading [true] [0]).env.acks = true :: [] ∧
    (reading [true] [0]).env.counts = 0 :: [] := by decide

/-- `UnacknowledgedReadTakesFourSteps`. -/
theorem test_witness_unacknowledged_read :
    (reading [false] []).seq = .idle ∧ (reading [false] []).hourMode = .h24 ∧ (reading [false] []).env.stalled = false ∧
    (reading [false] []).events = [.command 0x30000000#32] ∧ (reading [false] []).env.acks = false :: [] := by decide

/-- `SettimeChecksThenLatches`: the largest time of day, and each field one above it. -/
theorem test_witness_settime :
    State.reset.seq = .idle ∧ ((23#8 : Byte).toNat ≤ 23 ∧ (59#8 : Byte).toNat ≤ 59 ∧ (59#8 : Byte).toNat ≤ 59) ∧
    ¬ (24#8 : Byte).toNat ≤ 23 ∧ ¬ (60#8 : Byte).toNat ≤ 59 := by decide

/-- `WriteSequenceSendsTheFields` and `SentBytesLandAtThePointer` (q is WR_S, WR_M, WR_H): pointers 0 and 6. -/
theorem test_witness_sends (q : SeqState) :
    CoreTurn (busyAt q) [] ∧ (busyAt q).env.stalled = false ∧ (busyAt q).seq = q ∧ MemoryCanonical (busyAt q) ∧
    (busyAt q).rtc.firstByte = false ∧ (busyAt q).rtc.ptr.toNat ≤ 6 ∧
    ({ busyAt q with rtc := { Rtc.initial with ptr := 6#8 } } : State).rtc.ptr.toNat ≤ 6 :=
  ⟨.inl ⟨rfl, rfl⟩, rfl, rfl, rfl, rfl, by simp [busyAt, idleWith, Rtc.initial], by simp⟩

/-- A SETTIME 23, 59, 59 waits and BusEnd answers ok. -/
def writingLast (ok : Bool) : State :=
  { idleWith [.command (encode (.settime 23#8 59#8 59#8))] with env := { Env.initial with acks := [ok] } }

/-- `AcknowledgedWriteTakesSevenSteps` and `UnacknowledgedWriteTakesSevenSteps`, at the largest time of day. -/
theorem test_witness_writes (ok : Bool) :
    (writingLast ok).seq = .idle ∧ (writingLast ok).env.stalled = false ∧ MemoryCanonical (writingLast ok) ∧
    IsTimeOfDay 23#8 59#8 59#8 ∧ (writingLast ok).events = [.command (encode (.settime 23#8 59#8 59#8))] ∧
    (writingLast ok).env.acks = ok :: [] := by
  refine ⟨rfl, rfl, rfl, ?_, rfl, rfl⟩
  unfold IsTimeOfDay
  decide

/-- A state of `WriteThenReadReturnsTheTime` (P2). -/
def program2 : State :=
  { State.reset with
    events := [.command (encode (.settime 6#8 6#8 30#8)), .command 0x30000000#32]
    env := { Env.initial with mode := .reference } }

theorem test_witness_write_then_read :
    program2.seq = .idle ∧ program2.hourMode = .h24 ∧ MemoryCanonical program2 ∧ IsTimeOfDay 6#8 6#8 30#8 ∧
    program2.events = [.command (encode (.settime 6#8 6#8 30#8)), .command 0x30000000#32] ∧
    program2.env.mode = .reference ∧ program2.env.stalled = false ∧ program2.rtc.present = true ∧
    program2.env.acks = [] ∧ program2.env.counts = [] ∧ program2.env.bytes = [] := by
  refine ⟨rfl, rfl, rfl, ?_, rfl, rfl, rfl, rfl, rfl, rfl, rfl⟩
  unfold IsTimeOfDay
  decide

/-- `WriteClearsClockHaltAndSelects24Hour`: a SETTIME that reaches the bus. -/
theorem test_witness_reaches_bus :
    (after (exec (.settime 23#8 59#8 59#8) (idleWith []))).map (·.seq) = some .wrBegin := by decide

/-- `PortReadsGiveTheRegisters`, `OutsideMovesKeepCore`, `RtcChangesOneRegister`, `ResetStepClearsTheSpecifiedRegisters`:
each of these events gives a next state, the ports written. -/
theorem test_witness_outside :
    [Event.readStatus, .readTod, .readRes, .rtcSet 6 0xFF#8, .hostBus 6#8, .stall, .resume, .rtcTick 0].all
      (fun e => (after (step { idleWith [e] with todv := true, resv := true })).isSome) = true ∧
    (idleWith [.reset]).events = .reset :: [] ∧ (idleWith [.readRes]).resv = false ∧ (idleWith [.readTod]).todv = false ∧
    MemoryCanonical (idleWith [.rtcSet 6 0xFF#8]) := ⟨by decide, rfl, rfl, rfl, rfl⟩

/-- `UnansweredCallHoldsCore`: both clauses. -/
theorem test_witness_stalled :
    CoreTurn { busyAt .wrS with env := { Env.initial with stalled := true } } [] ∧
    CoreTurn { busyAt .rdFin with env := { Env.initial with stalled := true } } [] ∧ SeqState.wrS ≠ .rdFin :=
  ⟨.inl ⟨rfl, rfl⟩, .inl ⟨rfl, rfl⟩, by decide⟩

/-- The whole-machine rules and the frame of CORE's step: a step of CORE that calls, one that writes TOD, one that writes
RES, one that ends in an error, and a reset step. -/
theorem test_witness_steps :
    (after (step (busyAt .wrS))).isSome = true ∧ (after (sequencerStep (busyAt .wrS))).isSome = true ∧
    (after (step (readDone 7#3 0x59#8 0x59#8 0x23#8))).map (·.todv) = some true ∧
    (after (step (idleWith [.command 0x10000063#32]))).map (·.resv) = some true ∧
    (after (step (idleWith [.command 0x10000064#32]))).map (·.code) = some .invalidArgument ∧
    (after (step (readDone 6#3 0#8 0#8 0#8))).map (·.code) = some .transportFailure ∧
    (after (step (idleWith [.command 0x00000000#32]))).map (·.code) = some .illegalCommand ∧
    (after (step (readDone 7#3 0xAA#8 0x06#8 0x06#8))).map (·.code) = some .malformedRegisterData ∧
    (after (step (idleWith [.reset]))).isSome = true := by decide

/-- The RTC in the write sequence after its pointer byte. -/
def writing : State :=
  { busyAt .wrS with
    opdS := 0x59#8, opdM := 0x59#8, opdH := 0x23#8
    calls := [.send 0x00#8, .begin 0x68#7] }

/-- `CoreWritesOnlyRegistersZeroToTwo`, `WriteClearsClockHaltAndSelects24Hour`, `StepKeepsTheInvariant`: a busy state that
meets the invariant, on CORE's turn, whose step gives a next state. -/
theorem test_witness_invariant_busy :
    CoreInv writing ∧ CoreTurn writing [] ∧ writing.seq.isWrite = true ∧ (after (step writing)).isSome = true :=
  ⟨⟨fun h => absurd h (by decide), fun h => absurd h (by decide), by unfold PendingWhileBusy; decide, rfl,
    by unfold HourModeFits; decide, ⟨by decide, by decide⟩,
    fun _ => ⟨23#8, 59#8, 59#8, by unfold IsTimeOfDay; decide, by decide, by decide, by decide⟩,
    ⟨rfl, rfl, by decide⟩, ⟨[], rfl⟩, rfl⟩, .inl ⟨rfl, rfl⟩, rfl, by decide⟩

/-- A 12-hour CORE that takes a GETTIME. -/
def twelveHour : State := { idleWith [.command 0x30000000#32] with hourMode := .h12 }

/-- `OnlyGettimeIn12HourModeIsRefused`: a state that meets the invariant and whose step is refused. -/
theorem test_witness_refused : CoreInv twelveHour ∧ step twelveHour = .refused .hourModeH12 :=
  ⟨⟨fun h => absurd h (by decide), fun h => absurd h (by decide), by unfold PendingWhileBusy; decide, rfl,
    by unfold HourModeFits; decide, ⟨by decide, by decide⟩, fun h => absurd h (by decide), trivial, trivial, rfl⟩, rfl⟩

end Sys2Proof.Tests
end

section
/-! PROOFS. The environment's moves and the host's use of the bus (10_state rule R17; 20_memory rule R61;
70_reset_and_hazards rules R196, R198): what each such event makes of a state, and that none reaches CORE's registers. -/

namespace Sys2Proof.Machine

variable {s : State} {rest : List Event}

/-! ### CORE's registers through the updates of the environment -/

@[simp] theorem State.setEvents_coreView (s : State) (es : List Event) : (s.setEvents es).coreView = s.coreView := rfl

@[simp] theorem State.setRtc_coreView (s : State) (r : Rtc) : (s.setRtc r).coreView = s.coreView := rfl

@[simp] theorem State.setEnv_coreView (s : State) (v : Env) : (s.setEnv v).coreView = s.coreView := rfl

/-! ### The step of each event -/

theorem step_rtcSet {r : Fin 7} {b : Byte} (he : s.events = .rtcSet r b :: rest) :
    step s = .next (rtcSet r b (s.setEvents rest)) := by simp only [step, nextMove, he]

theorem step_rtcTick {n : Nat} (he : s.events = .rtcTick n :: rest) :
    step s = .next (rtcTick n (s.setEvents rest)) := by simp only [step, nextMove, he]

theorem step_hostBus {p : Byte} (he : s.events = .hostBus p :: rest) (hi : s.seq = .idle) :
    step s = .next (hostUsesBus p (s.setEvents rest)) := by simp only [step, nextMove, he, hi, if_true]

theorem step_stall (he : s.events = .stall :: rest) :
    step s = .next ((s.setEvents rest).setEnv { s.env with stalled := true }) := by simp only [step, nextMove, he]

theorem step_resume (he : s.events = .resume :: rest) :
    step s = .next ((s.setEvents rest).setEnv { s.env with stalled := false }) := by simp only [step, nextMove, he]

/-! ### No such event reaches CORE -/

/-- The first event belongs to the environment, or is the host's use of the bus while CORE is idle. -/
def EnvironmentMove (s : State) (e : Event) : Prop :=
  (∃ r b, e = .rtcSet r b) ∨ (∃ n, e = .rtcTick n) ∨ (∃ p, e = .hostBus p ∧ s.seq = .idle) ∨ e = .stall ∨ e = .resume

/-- Such a step takes the event from the list and replaces either the RTC or the way the environment answers. -/
theorem step_environmentMove {e : Event} (he : s.events = e :: rest) (hm : EnvironmentMove s e) :
    (∃ r, step s = .next ((s.setEvents rest).setRtc r)) ∨ (∃ v, step s = .next ((s.setEvents rest).setEnv v)) := by
  rcases hm with ⟨r, b, rfl⟩ | ⟨n, rfl⟩ | ⟨p, rfl, hi⟩ | rfl | rfl
  · exact .inl ⟨_, step_rtcSet he⟩
  · exact .inl ⟨_, step_rtcTick he⟩
  · exact .inl ⟨_, step_hostBus he hi⟩
  · exact .inr ⟨_, step_stall he⟩
  · exact .inr ⟨_, step_resume he⟩

/-- Settles O45: the next state differs in the events and in the RTC or the environment's answers, none of which is a
register of CORE, the trace, the port reads or HOUR_MODE. -/
theorem outsideMovesKeepCore : Obligations.OutsideMovesKeepCore := by
  intro s t e rest he hs hm
  rcases step_environmentMove he hm with ⟨r, hr⟩ | ⟨v, hv⟩
  · obtain rfl : (s.setEvents rest).setRtc r = t := by simpa [hr] using hs
    simp
  · obtain rfl : (s.setEvents rest).setEnv v = t := by simpa [hv] using hs
    simp

end Sys2Proof.Machine
end

section
/-! PROOFS. What the operations that replace the RTC or reset CORE do (20_memory rule R52; 41_transport rule R146;
70_reset_and_hazards rules R190, R191). -/

namespace Sys2Proof.Machine

/-! ### A byte sent and the RTC's registers -/

/-- Sending a byte leaves every register alone but the one it is stored in (R52 (b)). -/
theorem rtcAfterSend_read {mode : EnvMode} {b : Byte} {r : Rtc} {a : Nat}
    (h : ¬ (r.firstByte = false ∧ a = r.ptr.toNat)) :
    Memory.read (rtcAfterSend mode b r).mem a = Memory.read r.mem a := by
  by_cases hf : r.firstByte = true
  · rw [rtcAfterSend_first hf]
  · rw [Bool.not_eq_true] at hf
    rw [rtcAfterSend_further hf]
    exact Memory.read_write_other fun ha => h ⟨hf, ha⟩

/-! ### A write that was not acknowledged -/

/-- It replaces only the RTC and the way the environment answers. -/
theorem loseWrite_eq (s : State) : loseWrite s = (s.setRtc (loseWrite s).rtc).setEnv (loseWrite s).env := by
  unfold loseWrite
  split <;> rfl

/-- Registers from 3 on keep their bytes (log entry 7). -/
theorem loseWrite_read (s : State) {a : Nat} (ha : 3 ≤ a) :
    Memory.read (loseWrite s).rtc.mem a = Memory.read s.rtc.mem a := by
  unfold loseWrite
  split
  · rfl
  · exact Memory.read_freeFirst ha

theorem loseWrite_wf {s : State} (h : Memory.wf s.rtc.mem = true) : Memory.wf (loseWrite s).rtc.mem = true := by
  unfold loseWrite
  split
  · exact h
  · exact Memory.wf_freeFirst h (by decide)

/-! ### The reset step -/

section
variable (d : Nat) (s : State)

@[simp] theorem resetRegisters_seq : (resetRegisters d s).seq = .idle := rfl
@[simp] theorem resetRegisters_code : (resetRegisters d s).code = .none := rfl
@[simp] theorem resetRegisters_detail : (resetRegisters d s).detail = 0#3 := rfl
@[simp] theorem resetRegisters_todv : (resetRegisters d s).todv = false := rfl
@[simp] theorem resetRegisters_resv : (resetRegisters d s).resv = false := rfl
@[simp] theorem resetRegisters_rtc : (resetRegisters d s).rtc = s.rtc := rfl
@[simp] theorem resetRegisters_hourMode : (resetRegisters d s).hourMode = s.hourMode := rfl
@[simp] theorem resetRegisters_events : (resetRegisters d s).events = s.events := rfl
@[simp] theorem resetRegisters_calls : (resetRegisters d s).calls = s.calls := rfl
@[simp] theorem resetRegisters_seen : (resetRegisters d s).seen = s.seen := rfl

end

/-- Abandoning a sequence replaces only the RTC and the way the environment answers. -/
theorem abandonSequence_eq (s : State) :
    abandonSequence s = (s.setRtc (abandonSequence s).rtc).setEnv (abandonSequence s).env := by
  unfold abandonSequence
  split <;> rfl

theorem abandonSequence_wf {s : State} (h : Memory.wf s.rtc.mem = true) :
    Memory.wf (abandonSequence s).rtc.mem = true := by
  unfold abandonSequence
  split
  · exact h
  · exact Memory.wf_freeFirst h (by decide)

/-- The reset step is the reset of CORE's registers in a state that differs in the RTC and the environment's answers; the
RTC is the same when CORE was idle, and its register space stays canonical. -/
theorem resetCore_eq (s : State) : ∃ d r v, resetCore s = resetRegisters d ((s.setRtc r).setEnv v) ∧
    (s.seq = .idle → r = s.rtc) ∧ (Memory.wf s.rtc.mem = true → Memory.wf r.mem = true) := by
  unfold resetCore
  split
  · next hb =>
    refine ⟨(abandonSequence s).env.draws, (abandonSequence s).rtc, (abandonSequence s).env, ?_, fun hi => ?_,
      abandonSequence_wf⟩
    · rw [← abandonSequence_eq]
    · simp [State.busy, hi] at hb
  · exact ⟨_, s.rtc, s.env, rfl, fun _ => rfl, id⟩

/-- STATUS of an idle CORE with nothing written and no code is zero (R192). -/
theorem statusPort_cleared {s : State} (hq : s.seq = .idle) (hc : s.code = .none) (hd : s.detail = 0#3)
    (ht : s.todv = false) (hr : s.resv = false) : s.statusPort = 0x0000#16 := by
  simp only [State.statusPort, State.busy, hq, hc, hd, ht, hr]
  decide

theorem step_reset {s : State} {rest : List Event} (he : s.events = .reset :: rest) :
    step s = .next (resetCore (s.setEvents rest)) := by simp only [step, nextMove, he]

/-- Settles O44: reset ends in `resetRegisters`, which fixes the specified registers, and what comes before it reaches only
the RTC and the environment's answers. -/
theorem resetStepClearsTheSpecifiedRegisters : Obligations.ResetStepClearsTheSpecifiedRegisters := by
  intro s rest he
  obtain ⟨d, r, v, hreset, hrtc, -⟩ := resetCore_eq (s.setEvents rest)
  refine ⟨_, step_reset he, ?_⟩
  rw [hreset]
  have hstatus : (resetRegisters d (((s.setEvents rest).setRtc r).setEnv v)).statusPort = 0x0000#16 :=
    statusPort_cleared rfl rfl rfl rfl rfl
  simpa [hstatus] using hrtc

end Sys2Proof.Machine
end

section
/-! PROOFS. What a step can do, as a relation between the state and the next one, and what an accepted command can do (10_state
rule R20; 30_encoding rules R85, R86). -/

namespace Sys2Proof.Machine

/-! ### Steps of the whole machine -/

/-- The step that takes a waiting word (R20 (a)). -/
theorem step_command {s : State} {w : Word} {rest : List Event} (hi : s.seq = .idle)
    (he : s.events = .command w :: rest) : step s = acceptWord w (s.setEvents rest) := by
  simp [step, nextMove, he, hi]

/-- A word that decodes to a command is accepted as that command. -/
theorem acceptWord_of_decode {w : Word} {i : Instr} {s : State} (hw : decode w = .instr i) :
    acceptWord w s = exec i s := by simp [acceptWord, hw]

/-- An idle CORE has no step of its own. -/
theorem sequencerStep_idle {s : State} (hi : s.seq = .idle) : sequencerStep s = .next s := by
  simp [sequencerStep, sequencerMove, hi, SeqState.makesCall]

/-- Settles O13: taking the word is accepting it, and accepting a decoded word is exec of its command. -/
theorem stepRunsTheDecodedCommand : Obligations.StepRunsTheDecodedCommand := by
  intro s w rest i hi he hw
  exact (step_command hi he).trans (acceptWord_of_decode hw)

/-- Settles O16: both are CORE's turn, on which an idle CORE does nothing. -/
theorem idleCoreWaits : Obligations.IdleCoreWaits := by
  constructor
  · intro s hi he
    rw [step_of_coreTurn (.inl ⟨he, rfl⟩), sequencerStep_idle (by simpa using hi), ← he, State.setEvents_self]
  · intro s rest hi he
    rw [step_of_coreTurn (.inr (.inl he)), sequencerStep_idle (by simpa using hi)]
    rfl

/-- Where a step can lead: CORE's own step, the acceptance of a word, or one of the moves from outside that has a next
state, sorted by the part of the state it replaces. -/
inductive StepMove (s : State) : State → Prop where
  | core {t : State} (es : List Event) (turn : CoreTurn s es) (h : sequencerStep (s.setEvents es) = .next t) :
      StepMove s t
  | accept {t : State} (w : Word) (rest : List Event) (hi : s.seq = .idle) (he : s.events = .command w :: rest)
      (h : Acceptance w (s.setEvents rest) t) : StepMove s t
  | reset (rest : List Event) (he : s.events = .reset :: rest) : StepMove s (resetCore (s.setEvents rest))
  | read (rest : List Event) (p : PortRead) : StepMove s ((s.setEvents rest).logRead p)
  | rtcSet (rest : List Event) (r : Fin 7) (b : Byte) : StepMove s (rtcSet r b (s.setEvents rest))
  | hostBus (rest : List Event) (p : Byte) (hi : s.seq = .idle) : StepMove s (hostUsesBus p (s.setEvents rest))
  | answers (rest : List Event) (v : Env) : StepMove s ((s.setEvents rest).setEnv v)

/-- A move from outside that has a next state. -/
theorem StepMove.of_outsideMove {s t : State} {e : Event} {rest : List Event} {o : Outcome} (he : s.events = e :: rest)
    (h : OutsideMove s rest e o) (ho : o = .next t) : StepMove s t := by
  cases h with
  | reset => cases ho; exact .reset rest he
  | readStatus => cases ho; exact .read rest _
  | readTod =>
    unfold Machine.readTod at ho
    split at ho <;> cases ho
    exact .read rest _
  | readRes =>
    unfold Machine.readRes at ho
    split at ho <;> cases ho
    exact .read rest _
  | rtcSet r b => cases ho; exact .rtcSet rest r b
  | rtcTick n => cases ho; exact .rtcSet rest 0 _
  | hostBus p hi => cases ho; exact .hostBus rest p hi
  | stall => cases ho; exact .answers rest _
  | resume => cases ho; exact .answers rest _

/-- Every next state of a step is one of `StepMove`. -/
theorem StepMove.of_step {s t : State} (h : step s = .next t) : StepMove s t := by
  rcases step_cases s with ⟨es, turn, e⟩ | ⟨w, rest, hi, he, e⟩ | ⟨e, rest, he, ho⟩
  · exact .core es turn (e ▸ h)
  · exact .accept w rest hi he (.of_acceptWord hi (e ▸ h))
  · exact .of_outsideMove he ho h

/-! ### An accepted command -/

/-- While CORE is busy no command is taken (log entry 13). -/
theorem exec_busy {i : Instr} {s : State} (hb : s.seq ≠ .idle) : exec i s = .next s := by
  cases i <;> simp only [exec, execEnc, execDec, execGettime, execSettime, whenIdle_busy hb]

/-- Where exec can lead: CORE was busy, or STATUS alone is written, or RES, OPD or a sequence's start with it. -/
inductive ExecMove (s : State) : Instr → State → Prop where
  | busy (i : Instr) (hb : s.seq ≠ .idle) : ExecMove s i s
  | rejected (i : Instr) (e : Condition) (d : BitVec 3) : ExecMove s i (raiseCondition e d s)
  | enc (v : Byte) : ExecMove s (.enc v) (complete .ok 0#3 (s.setRes (enc8 v)))
  | dec (b : Byte) : ExecMove s (.dec b) (complete .ok 0#3 (s.setRes (dec8 b)))
  | gettime : ExecMove s .gettime (beginSequence .rdBegin s)
  | settime (h m sec : Byte) :
      ExecMove s (.settime h m sec) (beginSequence .wrBegin (s.setOpd (enc8 h) (enc8 m) (enc8 sec)))

/-- Every next state of exec is one of `ExecMove`. -/
theorem ExecMove.of_exec {i : Instr} {s t : State} (h : exec i s = .next t) : ExecMove s i t := by
  by_cases hi : s.seq = .idle
  · cases i with
    | enc v =>
      simp only [exec, execEnc, whenIdle_idle hi] at h
      split at h <;> cases h
      · exact .rejected _ _ _
      · exact .enc v
    | dec b =>
      simp only [exec, execDec, whenIdle_idle hi] at h
      split at h <;> cases h
      · exact .rejected _ _ _
      · exact .dec b
    | gettime =>
      simp only [exec, execGettime, whenIdle_idle hi] at h
      split at h <;> cases h
      exact .gettime
    | settime a b c =>
      simp only [exec, execSettime, whenIdle_idle hi] at h
      split at h <;> cases h
      · exact .rejected _ _ _
      · exact .settime a b c
  · rw [exec_busy hi] at h
    cases h
    exact .busy i hi

/-- Settles O17: each move of `ExecMove` is made of updates of STATUS, SEQ, RES and OPD. -/
theorem commandsKeepEverythingElse : Obligations.CommandsKeepEverythingElse := by
  intro i s t h
  cases ExecMove.of_exec h with
  | busy => simp
  | rejected => simp
  | enc v => simp
  | dec b => simp
  | gettime => simp
  | settime h m sec => simp

end Sys2Proof.Machine
end

section
/-! PROOFS. What CORE's own step leaves unchanged (10_state rules R32, R33; 20_memory rule R52), and the whole-machine rules
on the trace, TOD and RES (10_state rules R22 to R26). -/

namespace Sys2Proof.Machine

variable {s t : State}

/-! ### The frame of CORE's own step -/

theorem CoreMove.keeps (m : CoreMove s t) :
    t.hourMode = s.hourMode ∧ t.events = s.events ∧ t.seen = s.seen ∧ t.res = s.res ∧ t.resv = s.resv ∧
      t.opdS = s.opdS ∧ t.opdM = s.opdM ∧ t.opdH = s.opdH := by
  cases m with
  | wrNack => rw [loseWrite_eq]; simp
  | _ => simp

/-- A full read whose DETAIL is 0 has read a time of day (R127, R130). -/
theorem isTimeOfDay_of_readDetail (h : readDetail s = 0#3) :
    IsTimeOfDay (dec8 (rawHours s)) (dec8 (rawMinutes s)) (dec8 (rawSeconds s)) := by
  obtain ⟨hh, hm, hs⟩ := (mask3_eq_zero _ _ _).1 h
  simp only [Bool.or_eq_false_iff, hoursOut, minutesOut, secondsOut, decide_eq_false_iff_not, not_lt] at hh hm hs
  exact ⟨hh.2, hm.2, hs.2⟩

/-- TOD and TODV change only when RD_FIN completes with OK, and then TOD is a time of day. -/
theorem CoreMove.tod (m : CoreMove s t) :
    (t.todS = s.todS ∧ t.todM = s.todM ∧ t.todH = s.todH ∧ t.todv = s.todv) ∨
    (s.seq = .rdFin ∧ t.seq = .idle ∧ t.code = .ok ∧ t.todv = true ∧ IsTimeOfDay t.todH t.todM t.todS) := by
  cases m with
  | rdOk hq hn hh hd => exact .inr ⟨hq, rfl, rfl, rfl, isTimeOfDay_of_readDetail hd⟩
  | wrNack => rw [loseWrite_eq]; simp
  | _ => simp

theorem CoreMove.rxn_eq (m : CoreMove s t) (h : s.seq ≠ .rdReq) : t.rxn = s.rxn := by
  cases m with
  | rdReq hq => exact absurd hq h
  | wrNack => rw [loseWrite_eq]; simp
  | _ => simp

theorem CoreMove.rxi_eq (m : CoreMove s t) (h : s.seq ≠ .rdReq) (h' : s.seq ≠ .rdRecv) : t.rxi = s.rxi := by
  cases m with
  | rdReq hq => exact absurd hq h
  | rdRecv hq => exact absurd hq h'
  | wrNack => rw [loseWrite_eq]; simp
  | _ => simp

theorem CoreMove.rxb_eq (m : CoreMove s t) (h : s.seq ≠ .rdRecv) :
    t.rxb0 = s.rxb0 ∧ t.rxb1 = s.rxb1 ∧ t.rxb2 = s.rxb2 := by
  cases m with
  | rdRecv hq => exact absurd hq h
  | wrNack => rw [loseWrite_eq]; simp
  | _ => simp

/-- The states that send a byte. -/
def sendStates : List SeqState := [.rdPtr, .wrPtr, .wrS, .wrM, .wrH]

/-- An RTC register changes only where a byte is stored, or when a write was not acknowledged. -/
theorem CoreMove.read_eq (m : CoreMove s t) {a : Nat}
    (hsend : ¬ (s.seq ∈ sendStates ∧ s.rtc.firstByte = false ∧ a = s.rtc.ptr.toNat))
    (hlost : ¬ (s.seq = .wrEnd ∧ answerAck s = false ∧ a < 3)) :
    Memory.read t.rtc.mem a = Memory.read s.rtc.mem a := by
  have sent (hq : s.seq ∈ sendStates) (b : Byte) :
      Memory.read (rtcAfterSend s.env.mode b s.rtc).mem a = Memory.read s.rtc.mem a :=
    rtcAfterSend_read fun h => hsend ⟨hq, h⟩
  cases m with
  | rdPtr hq | wrPtr hq | wrS hq | wrM hq | wrH hq => exact sent (by simp [hq, sendStates]) _
  | wrNack hq ha => exact loseWrite_read _ (not_lt.1 fun h => hlost ⟨hq, ha, h⟩)
  | _ => rfl

/-- Settles O54: the frame lemmas of `CoreMove`, one per group of registers. -/
theorem sequencerKeepsEverythingElse : Obligations.SequencerKeepsEverythingElse := by
  intro s t h
  have m := CoreMove.of_sequencerStep h
  obtain ⟨hmode, hevents, hseen, hres, hresv, hopdS, hopdM, hopdH⟩ := m.keeps
  exact ⟨hmode, hevents, hseen, hres, hresv, hopdS, hopdM, hopdH,
    fun hq => m.tod.resolve_right fun h => hq h.1, m.rxn_eq, m.rxi_eq, m.rxb_eq, fun _ => m.read_eq⟩

/-! ### The trace -/

/-- The trace grows by at most one call, and only in a state that makes one. -/
theorem CoreMove.calls (m : CoreMove s t) :
    t.calls = s.calls ∨ (∃ c, t.calls = c :: s.calls) ∧ s.seq.makesCall = true := by
  cases m with
  | wait | rdShort | rdBad | rdOk => exact .inl rfl
  | wrNack hq =>
    rw [loseWrite_eq]
    exact .inr ⟨⟨_, rfl⟩, by rw [hq]; rfl⟩
  | rdBegin hq | rdPtr hq | rdEnd hq | rdNack hq | rdReq hq | rdRecv hq | wrBegin hq | wrPtr hq | wrS hq | wrM hq
  | wrH hq | wrEnd hq => exact .inr ⟨⟨_, rfl⟩, by rw [hq]; rfl⟩

/-- CORE's own step adds a call only while the collaborator answers (I6). -/
theorem sequencerStep_calls (h : sequencerStep s = .next t) :
    t.calls = s.calls ∨ (∃ c, t.calls = c :: s.calls) ∧ s.seq.makesCall = true ∧ s.env.stalled = false := by
  rcases (CoreMove.of_sequencerStep h).calls with hc | ⟨hc, hm⟩
  · exact .inl hc
  · by_cases hs : s.env.stalled = true
    · rw [sequencerStep_stalled hs hm] at h
      cases h
      exact .inl rfl
    · exact .inr ⟨hc, hm, by simpa using hs⟩

theorem Acceptance.calls {w : Word} (a : Acceptance w s t) : t.calls = s.calls := by cases a <;> rfl

/-- A reset step makes no call. -/
theorem resetCore_calls (s : State) : (resetCore s).calls = s.calls := by
  obtain ⟨d, r, v, h, -⟩ := resetCore_eq s
  rw [h]
  rfl

/-- Settles O48: only CORE's own step logs a call, and it logs one. -/
theorem eachStepMakesAtMostOneCall : Obligations.EachStepMakesAtMostOneCall := by
  intro s t h
  cases StepMove.of_step h with
  | core es turn hseq =>
    rcases sequencerStep_calls hseq with hc | ⟨hc, hm, hs⟩
    · exact .inl hc
    · exact .inr ⟨hc, ⟨es, turn⟩, hm, hs⟩
  | accept w rest hi he ha => exact .inl ha.calls
  | reset rest he => exact .inl (resetCore_calls _)
  | read | rtcSet | hostBus | answers => exact .inl rfl

/-! ### TOD and RES -/

theorem Acceptance.tod {w : Word} (a : Acceptance w s t) :
    t.todS = s.todS ∧ t.todM = s.todM ∧ t.todH = s.todH ∧ t.todv = s.todv := by cases a <;> simp

/-- Settles O49: of CORE's moves only RD_FIN completing with OK writes TOD, and of the others only reset. -/
theorem onlyGettimeAndResetWriteTod : Obligations.OnlyGettimeAndResetWriteTod := by
  intro s t h
  cases StepMove.of_step h with
  | core es turn hseq => exact (CoreMove.of_sequencerStep hseq).tod.imp_right .inl
  | accept w rest hi he ha => exact .inl ha.tod
  | reset rest he => exact .inr (.inr ⟨rfl, rest, he⟩)
  | read | rtcSet | hostBus | answers => exact .inl ⟨rfl, rfl, rfl, rfl⟩

/-- The word is an ENC or a DEC that completes with OK, and b is its result (R103, R107). -/
def CodecResult (w : Word) (b : Byte) : Prop :=
  (∃ v, decode w = .instr (.enc v) ∧ v.toNat ≤ 99 ∧ b = enc8 v) ∨
  (∃ c, decode w = .instr (.dec c) ∧ bcdOk c = true ∧ b = dec8 c)

theorem Acceptance.res {w : Word} (a : Acceptance w s t) :
    (t.res = s.res ∧ t.resv = s.resv) ∨ (t.code = .ok ∧ t.resv = true ∧ CodecResult w t.res) := by
  cases a with
  | enc v hw hv => exact .inr ⟨rfl, rfl, .inl ⟨v, hw, hv, rfl⟩⟩
  | dec b hw hb => exact .inr ⟨rfl, rfl, .inr ⟨b, hw, hb, rfl⟩⟩
  | _ => exact .inl ⟨rfl, rfl⟩

/-- RES and RESV change only when an ENC or DEC completes with OK, or in a reset step. -/
theorem step_res (h : step s = .next t) :
    (t.res = s.res ∧ t.resv = s.resv) ∨
    (s.seq = .idle ∧ t.code = .ok ∧ t.resv = true ∧ ∃ w rest, s.events = .command w :: rest ∧ CodecResult w t.res) ∨
    (t.resv = false ∧ ∃ rest, s.events = .reset :: rest) := by
  cases StepMove.of_step h with
  | core es turn hseq =>
    obtain ⟨-, -, -, hres, hresv, -⟩ := (CoreMove.of_sequencerStep hseq).keeps
    exact .inl ⟨hres, hresv⟩
  | accept w rest hi he ha =>
    rcases ha.res with hk | ⟨hc, hv, hw⟩
    · exact .inl hk
    · exact .inr (.inl ⟨hi, hc, hv, w, rest, he, hw⟩)
  | reset rest he => exact .inr (.inr ⟨rfl, rest, he⟩)
  | read | rtcSet | hostBus | answers => exact .inl ⟨rfl, rfl⟩

/-- Settles O50: `step_res` without the bounds on the operand. -/
theorem onlyCodecAndResetWriteRes : Obligations.OnlyCodecAndResetWriteRes := by
  intro s t h
  rcases step_res h with hk | ⟨hi, hc, hv, w, rest, he, hw⟩ | hr
  · exact .inl hk
  · refine .inr (.inl ⟨hi, hc, hv, w, rest, he, ?_⟩)
    rcases hw with ⟨v, hw, -, hb⟩ | ⟨b, hw, -, hb⟩
    · exact .inl ⟨v, hw, hb⟩
    · exact .inr ⟨b, hw, hb⟩
  · exact .inr (.inr hr)

end Sys2Proof.Machine
end

section
/-! PROOFS. The machine's invariant (10_state rules R23, R28, R29; 20_memory rules R52, R60; 40_codec rules R103, R107;
41_transport rules R120, R125, R140), clause by clause over the moves of `StepMove`. -/

namespace Sys2Proof.Machine

variable {s t : State}

/-! ### TOD and RES in range -/

/-- Settles O56: by O49 a step keeps TOD and TODV, writes a time of day, or clears TODV. -/
theorem stepKeepsTodInRange : Obligations.StepKeepsTodInRange := by
  intro s t inv h
  rcases onlyGettimeAndResetWriteTod s t h with ⟨hs, hm, hh, hv⟩ | ⟨-, -, -, -, ht⟩ | ⟨hv, -⟩
  · simpa [TodInRange, hs, hm, hh, hv] using inv
  · exact fun _ => ht
  · simp [TodInRange, hv]

/-- The result of the codec is at most 0x99 (R101, R106). -/
theorem CodecResult.le {w : Word} {b : Byte} (h : CodecResult w b) : b.toNat ≤ 0x99 := by
  rcases h with ⟨v, -, hv, rfl⟩ | ⟨c, -, hc, rfl⟩
  · rw [enc8_toNat hv]
    omega
  · rw [dec8_toNat]
    have := (bcdOk_iff c).1 hc
    omega

theorem step_resInRange (inv : ResInRange s) (h : step s = .next t) : ResInRange t := by
  rcases step_res h with ⟨hr, hv⟩ | ⟨-, -, -, w, rest, -, hw⟩ | ⟨hv, -⟩
  · simpa [ResInRange, hr, hv] using inv
  · exact fun _ => hw.le
  · simp [ResInRange, hv]

/-! ### STATUS -/

/-- STATUS and whether CORE is busy are as before. -/
def StatusKept (s t : State) : Prop := (t.seq = .idle ↔ s.seq = .idle) ∧ t.code = s.code ∧ t.detail = s.detail

/-- CORE is idle, with a code that is not PENDING and a DETAIL that fits it. -/
def CoreAtRest (t : State) : Prop := t.seq = .idle ∧ t.code ≠ .pending ∧ DetailFits t

/-- A sequence begins (R120, R140). -/
def SequenceBegun (t : State) : Prop := t.seq ≠ .idle ∧ t.code = .pending ∧ t.detail = 0#3

theorem CoreMove.status (m : CoreMove s t) : StatusKept s t ∨ CoreAtRest t := by
  cases m with
  | wait => exact .inl ⟨.rfl, rfl, rfl⟩
  | rdNack | wrNack => exact .inr ⟨rfl, nofun, .inl rfl⟩
  | rdShort => exact .inr ⟨rfl, nofun, .inr rfl⟩
  | rdBad _ _ _ hd => exact .inr ⟨rfl, nofun, hd⟩
  | rdOk | wrEnd => exact .inr ⟨rfl, nofun, rfl⟩
  | rdReq hq | rdRecv hq => left; simp only [StatusKept, State.setSeq_seq, hq]; split <;> simp
  | rdBegin hq | rdPtr hq | rdEnd hq | wrBegin hq | wrPtr hq | wrS hq | wrM hq | wrH hq =>
    left; simp [StatusKept, hq]

theorem Acceptance.status {w : Word} (a : Acceptance w s t) : CoreAtRest t ∨ SequenceBegun t := by
  cases a with
  | enc | dec | illegal => exact .inl ⟨rfl, nofun, rfl⟩
  | badOperand d hd | badNibble d hd => exact .inl ⟨rfl, nofun, hd⟩
  | gettime | settime => exact .inr ⟨nofun, rfl, rfl⟩

/-- What a step makes of STATUS: nothing, the end of a command, or the beginning of a sequence. -/
theorem StepMove.status (m : StepMove s t) : StatusKept s t ∨ CoreAtRest t ∨ SequenceBegun t := by
  cases m with
  | core es turn h => exact (CoreMove.of_sequencerStep h).status.imp_right .inl
  | accept w rest hi he h => exact .inr h.status
  | reset => exact .inr (.inl ⟨rfl, nofun, rfl⟩)
  | read | rtcSet | hostBus | answers => exact .inl ⟨.rfl, rfl, rfl⟩

/-- Settles O57: in each case of `StepMove.status` PENDING and being busy go together. -/
theorem stepKeepsPendingWhileBusy : Obligations.StepKeepsPendingWhileBusy := by
  intro s t inv h
  unfold PendingWhileBusy at inv ⊢
  rcases (StepMove.of_step h).status with ⟨hq, hc, -⟩ | ⟨hq, hc, -⟩ | ⟨hq, hc, -⟩
  · rw [hc, inv, ne_eq, ne_eq, hq]
  · simp [hq, hc]
  · simp [hq, hc]

theorem StepMove.detailFits (m : StepMove s t) (inv : DetailFits s) : DetailFits t := by
  rcases m.status with ⟨-, hc, hd⟩ | ⟨-, -, h⟩ | ⟨-, hc, hd⟩
  · simpa only [DetailFits, hc, hd] using inv
  · exact h
  · simpa only [DetailFits, hc] using hd

/-! ### The RTC's register space -/

theorem CoreMove.memoryCanonical (m : CoreMove s t) (inv : MemoryCanonical s) : MemoryCanonical t := by
  cases m with
  | rdPtr | wrPtr | wrS | wrM | wrH => exact rtcAfterSend_wf inv
  | wrNack => exact loseWrite_wf inv
  | _ => exact inv

theorem Acceptance.rtc {w : Word} (a : Acceptance w s t) : t.rtc = s.rtc := by cases a <;> simp

theorem StepMove.memoryCanonical (m : StepMove s t) (inv : MemoryCanonical s) : MemoryCanonical t := by
  cases m with
  | core es turn h => exact (CoreMove.of_sequencerStep h).memoryCanonical inv
  | accept w rest hi he h =>
    rw [MemoryCanonical, h.rtc]
    exact inv
  | reset rest he =>
    obtain ⟨d, r, v, h, -, hwf⟩ := resetCore_eq (s.setEvents rest)
    rw [h]
    exact hwf inv
  | rtcSet rest r b => exact Memory.wf_write inv (r.isLt.trans (by decide))
  | read | hostBus | answers => exact inv

/-! ### The sequences -/

/-- The clauses of the invariant that speak of a sequence in progress. -/
structure SequenceInv (s : State) : Prop where
  hourMode : HourModeFits s
  receive : ReceiveProgress s
  opd : OpdEncodesTime s
  rtc : RtcFollows s
  calls : CallsFollow s

/-- An idle CORE has no sequence in progress. -/
theorem SequenceInv.of_idle (hq : s.seq = .idle) : SequenceInv s where
  hourMode := by simp [HourModeFits, hq, SeqState.isRead]
  receive := by simp [ReceiveProgress, hq]
  opd := by simp [OpdEncodesTime, hq, SeqState.isWrite]
  rtc := by simp [RtcFollows, hq]
  calls := by simp [CallsFollow, hq]

/-- A sequence begins in 24-hour mode, or with the encoded fields of a time of day. -/
theorem Acceptance.sequenceInv {w : Word} (a : Acceptance w s t) : SequenceInv t := by
  cases a with
  | gettime hw hh => exact ⟨fun _ => hh, ⟨nofun, nofun⟩, nofun, trivial, trivial⟩
  | settime h m sec hw ht => exact ⟨nofun, ⟨nofun, nofun⟩, fun _ => ⟨h, m, sec, ht, rfl, rfl, rfl⟩, trivial, trivial⟩
  | enc | dec | badOperand | badNibble | illegal => exact .of_idle rfl

/-- CORE's own step stays in the sequence it is in, or ends it. -/
theorem CoreMove.isRead (m : CoreMove s t) (h : t.seq.isRead = true) : s.seq.isRead = true := by
  cases m with
  | wait => exact h
  | rdBegin hq | rdPtr hq | rdEnd hq | rdReq hq | rdRecv hq => rw [hq]; rfl
  | rdNack | rdShort | rdBad | rdOk | wrBegin | wrPtr | wrS | wrM | wrH | wrEnd | wrNack => cases h

theorem CoreMove.isWrite (m : CoreMove s t) (h : t.seq.isWrite = true) : s.seq.isWrite = true := by
  cases m with
  | wait => exact h
  | wrBegin hq | wrPtr hq | wrS hq | wrM hq | wrH hq => rw [hq]; rfl
  | rdReq | rdRecv => rw [State.setSeq_seq] at h; split at h <;> cases h
  | rdBegin | rdPtr | rdEnd | rdNack | rdShort | rdBad | rdOk | wrEnd | wrNack => cases h

theorem CoreMove.hourModeFits (m : CoreMove s t) (inv : HourModeFits s) : HourModeFits t := by
  obtain ⟨hmode, -⟩ := m.keeps
  exact fun h => hmode.trans (inv (m.isRead h))

theorem CoreMove.opdEncodesTime (m : CoreMove s t) (inv : OpdEncodesTime s) : OpdEncodesTime t := by
  obtain ⟨-, -, -, -, -, hS, hM, hH⟩ := m.keeps
  intro h
  rw [hS, hM, hH]
  exact inv (m.isWrite h)

/-! ### The progress of a read -/

/-- RXI does not wrap while bytes are still to come. -/
theorem rxi_succ_toNat {i n : BitVec 3} (h : i.toNat < n.toNat) : (i + 1#3).toNat = i.toNat + 1 := by bv_omega

/-- A count within the contract fits RXN. -/
theorem ofNat_count_toNat {n : Nat} (h : n ≤ 7) : (BitVec.ofNat 3 n).toNat = n := by
  rw [BitVec.toNat_ofNat]
  omega

theorem CoreMove.receiveProgress (m : CoreMove s t) (inv : ReceiveProgress s) : ReceiveProgress t := by
  cases m with
  | wait => exact inv
  | rdReq hq hn =>
    have hrxn := ofNat_count_toNat hn
    by_cases h0 : answerCount 7 s = 0
    · simp [ReceiveProgress, h0]
    · simpa [ReceiveProgress, h0, hrxn] using Nat.pos_of_ne_zero h0
  | rdRecv hq =>
    have hlt := inv.1 hq
    have hsucc := rxi_succ_toNat hlt
    by_cases hlast : s.rxi + 1#3 = s.rxn
    · simp [ReceiveProgress, hlast]
    · have hne : (s.rxi + 1#3).toNat ≠ s.rxn.toNat := fun h => hlast (BitVec.eq_of_toNat_eq h)
      have hlt' : (s.rxi + 1#3).toNat < s.rxn.toNat := by omega
      simpa [ReceiveProgress, hlast] using hlt'
  | _ => exact ⟨nofun, nofun⟩

/-! ### The RTC's pointer -/

/-- The write transaction is open and the next byte goes to register n (R52 (b)). -/
def WritesAt (r : Rtc) (n : Nat) : Prop := r.writeOpen = true ∧ r.firstByte = false ∧ r.ptr.toNat = n

/-- The pointer byte of both sequences leads to register 0 (R52 (a)). -/
theorem writesAt_zero {mode : EnvMode} {r : Rtc} (h : r.writeOpen = true ∧ r.firstByte = true) :
    WritesAt (rtcAfterSend mode Config.ptrStart r) 0 := by
  rw [rtcAfterSend_first h.2]
  exact ⟨h.1, rfl, rfl⟩

/-- Each stored byte leads to the next register (R52 (b)). -/
theorem WritesAt.succ {mode : EnvMode} {b : Byte} {r : Rtc} {n : Nat} (h : WritesAt r n) (hn : n ≤ 6) :
    WritesAt (rtcAfterSend mode b r) (n + 1) := by
  obtain ⟨ho, hf, rfl⟩ := h
  rw [rtcAfterSend_further hf]
  exact ⟨ho, hf, pointerAfter_toNat hn⟩

/-- A request for bytes from register 0 leaves the pointer past them, and they all wait (R52 (c), R53). -/
theorem rtcAfterRequest_follows {mode : EnvMode} {r : Rtc} {n : Nat} (hp : r.ptr.toNat = 0) (hn : n ≤ 7) :
    (rtcAfterRequest mode n r).ptr.toNat = n ∧ (rtcAfterRequest mode n r).rxq.length = n := by
  refine ⟨?_, bytesFrom_length _ _ _ _⟩
  rw [rtcAfterRequest, pointerAfterAll_toNat (by omega), hp, Nat.zero_add]

theorem CoreMove.rtcFollows (m : CoreMove s t) (hr : ReceiveProgress s) (inv : RtcFollows s) : RtcFollows t := by
  unfold RtcFollows at inv
  cases m with
  | wait => exact inv
  | rdBegin | wrBegin => exact ⟨rfl, rfl⟩
  | rdPtr hq | wrPtr hq =>
    rw [hq] at inv
    exact writesAt_zero inv
  | rdEnd hq ha =>
    rw [hq] at inv
    obtain ⟨-, -, hp⟩ := inv
    simpa [RtcFollows, rtcAfterEnd, ha] using hp
  | rdReq hq hn =>
    rw [hq] at inv
    obtain ⟨hp, hl⟩ := rtcAfterRequest_follows (mode := s.env.mode) inv.2 hn
    have hrxn := ofNat_count_toNat hn
    by_cases h0 : answerCount 7 s = 0
    · rw [h0] at hp hl
      simpa [RtcFollows, h0, hp] using hl
    · simp [RtcFollows, h0, hrxn, hp, hl]
  | rdRecv hq =>
    have hlt := hr.1 hq
    have hsucc := rxi_succ_toNat hlt
    rw [hq] at inv
    obtain ⟨hp, hl⟩ := inv
    have htail : s.rtc.rxq.tail.length + (s.rxi + 1#3).toNat = s.rxn.toNat := by
      rw [List.length_tail]
      omega
    by_cases hlast : s.rxi + 1#3 = s.rxn
    · have hnil : s.rtc.rxq.tail = [] := List.eq_nil_of_length_eq_zero (by rw [hlast] at htail; omega)
      simp [RtcFollows, hlast, hp, hnil]
    · rw [RtcFollows, if_neg hlast]
      exact ⟨hp, htail⟩
  | wrS hq | wrM hq | wrH hq =>
    rw [hq] at inv
    exact WritesAt.succ inv (by decide)
  | rdNack | rdShort | rdBad | rdOk | wrEnd | wrNack => trivial

/-! ### The calls of a sequence -/

/-- Byte number x of a read goes to the register that keeps byte i, or leaves it as it was. -/
theorem getElem?_receive {bs : List Byte} {b r : Byte} {x : BitVec 3} {i : Nat} (hi : i < 8)
    (h : ∀ c, bs[i]? = some c → r = c) (hl : bs.length = x.toNat) :
    ∀ c, (bs ++ [b])[i]? = some c → (if x = BitVec.ofNat 3 i then b else r) = c := by
  intro c hc
  have hx : x = BitVec.ofNat 3 i ↔ i = bs.length := by rw [hl]; bv_omega
  by_cases hn : i = bs.length
  · rw [if_pos (hx.2 hn)]
    simpa [hn] using hc
  · rw [if_neg (mt hx.1 hn)]
    refine h c ?_
    by_cases hlt : i < bs.length
    · rwa [List.getElem?_append_left hlt] at hc
    · have hlong : (bs ++ [b]).length ≤ i := by
        rw [List.length_append, List.length_singleton]
        omega
      rw [List.getElem?_eq_none hlong] at hc
      cases hc

/-- The byte received goes to its place among the first three (R125). -/
theorem KeepsFirstThree.receiveInto {bs : List Byte} {b : Byte} (h : KeepsFirstThree s.rxb0 s.rxb1 s.rxb2 bs)
    (hl : bs.length = s.rxi.toNat) :
    KeepsFirstThree (s.receiveInto b).rxb0 (s.receiveInto b).rxb1 (s.receiveInto b).rxb2 (bs ++ [b]) := by
  obtain ⟨h0, h1, h2⟩ := h
  exact ⟨getElem?_receive (by decide) h0 hl, getElem?_receive (by decide) h1 hl, getElem?_receive (by decide) h2 hl⟩

/-- The newest calls are those of a read that has received RXI bytes (R124, R125). -/
def ReceiveCalls (s : State) : Prop :=
  ∃ bs old, bs.length = s.rxi.toNat ∧ KeepsFirstThree s.rxb0 s.rxb1 s.rxb2 bs ∧
    s.calls = (bs.map BusCall.receive).reverse ++ (.request Config.devAddr Config.readCount s.rxn.toNat ::
      .finish true :: (pointerWrite ++ old))

/-- RD_RECV and RD_FIN ask the same of the trace. -/
theorem ReceiveCalls.callsFollow {c : Prop} [Decidable c] (hq : s.seq = if c then .rdFin else .rdRecv)
    (h : ReceiveCalls s) : CallsFollow s := by
  unfold CallsFollow
  rw [hq]
  split_ifs <;> exact h

theorem CoreMove.callsFollow (m : CoreMove s t) (hr : ReceiveProgress s) (inv : CallsFollow s) : CallsFollow t := by
  unfold CallsFollow at inv
  cases m with
  | wait => exact inv
  | rdBegin | wrBegin => exact ⟨s.calls, rfl⟩
  | rdPtr hq | wrPtr hq | wrS hq | wrM hq | wrH hq =>
    rw [hq] at inv
    obtain ⟨old, hc⟩ := inv
    exact ⟨old, congrArg _ hc⟩
  | rdEnd hq ha =>
    rw [hq] at inv
    obtain ⟨old, hc⟩ := inv
    exact ⟨old, by simp [ha, hc]⟩
  | rdReq hq hn =>
    rw [hq] at inv
    obtain ⟨old, hc⟩ := inv
    have hrxn := ofNat_count_toNat hn
    exact ReceiveCalls.callsFollow rfl ⟨[], old, rfl, by simp [KeepsFirstThree], by simp [hc, hrxn, Config.readCount]⟩
  | rdRecv hq =>
    rw [hq] at inv
    obtain ⟨bs, old, hl, hk, hc⟩ := inv
    have hsucc := rxi_succ_toNat (hr.1 hq)
    exact ReceiveCalls.callsFollow rfl
      ⟨bs ++ [answerByte s], old, by simp [hl, hsucc], hk.receiveInto hl, by simp [hc]⟩
  | rdNack | rdShort | rdBad | rdOk | wrEnd | wrNack => trivial

theorem CoreMove.sequenceInv (m : CoreMove s t) (inv : SequenceInv s) : SequenceInv t where
  hourMode := m.hourModeFits inv.hourMode
  receive := m.receiveProgress inv.receive
  opd := m.opdEncodesTime inv.opd
  rtc := m.rtcFollows inv.receive inv.rtc
  calls := m.callsFollow inv.receive inv.calls

/-- The sequence clauses do not speak of what happens next. -/
theorem SequenceInv.setEvents (inv : SequenceInv s) (es : List Event) : SequenceInv (s.setEvents es) :=
  ⟨inv.hourMode, inv.receive, inv.opd, inv.rtc, inv.calls⟩

theorem StepMove.sequenceInv (m : StepMove s t) (inv : SequenceInv s) : SequenceInv t := by
  cases m with
  | core es turn h => exact (CoreMove.of_sequencerStep h).sequenceInv (inv.setEvents es)
  | accept w rest hi he h => exact h.sequenceInv
  | reset rest he => exact .of_idle rfl
  | hostBus rest p hi => exact .of_idle hi
  | read | rtcSet | answers => exact ⟨inv.hourMode, inv.receive, inv.opd, inv.rtc, inv.calls⟩

/-! ### The whole invariant -/

/-- Settles O58: each clause is kept; the clauses on the sequence in progress need one another, so they go together. -/
theorem stepKeepsTheInvariant : Obligations.StepKeepsTheInvariant := by
  intro s t inv h
  have m := StepMove.of_step h
  obtain ⟨hmode, hreceive, hopd, hrtc, hcalls⟩ :=
    m.sequenceInv ⟨inv.hourMode, inv.receive, inv.opd, inv.rtc, inv.calls⟩
  exact
    { tod := stepKeepsTodInRange s t inv.tod h
      res := step_resInRange inv.res h
      pending := stepKeepsPendingWhileBusy s t inv.pending h
      detail := m.detailFits inv.detail
      hourMode := hmode
      receive := hreceive
      opd := hopd
      rtc := hrtc
      calls := hcalls
      mem := m.memoryCanonical inv.mem }

/-- Settles O59: reset leaves CORE idle with nothing written, and an empty register space is canonical. -/
theorem resetStateMeetsTheInvariant : Obligations.ResetStateMeetsTheInvariant := by
  obtain ⟨hmode, hreceive, hopd, hrtc, hcalls⟩ := SequenceInv.of_idle (s := State.reset) rfl
  exact
    { tod := nofun
      res := nofun
      pending := ⟨nofun, fun h => absurd rfl h⟩
      detail := rfl
      hourMode := hmode
      receive := hreceive
      opd := hopd
      rtc := hrtc
      calls := hcalls
      mem := rfl }

end Sys2Proof.Machine
end

section
/-! PROOFS. The STATUS word (10_state rules R27, R28, R30) and the host's port reads (10_state rules R23, R25; 60_exceptions
rule R170; 70_reset_and_hazards rule R200). -/

namespace Sys2Proof.Machine

variable {s : State} {rest : List Event}

/-! ### The STATUS word -/

theorem busy_iff (s : State) : s.busy = true ↔ s.seq ≠ .idle := by simp [State.busy]

/-- The low byte of STATUS (R27): a reserved bit, DETAIL, a reserved bit, CODE. -/
theorem statusLow_fields (d c : BitVec 3) :
    (0#1 ++ d ++ 0#1 ++ c : BitVec 8).extractLsb' 0 3 = c ∧ (0#1 ++ d ++ 0#1 ++ c : BitVec 8).getLsbD 3 = false ∧
    (0#1 ++ d ++ 0#1 ++ c : BitVec 8).extractLsb' 4 3 = d ∧ (0#1 ++ d ++ 0#1 ++ c : BitVec 8).getLsbD 7 = false := by
  revert d c
  decide

/-- The high byte of STATUS (R27): five reserved bits, RESV, TODV, BUSY. -/
theorem statusHigh_fields (r t b : Bool) :
    (0#5 ++ BitVec.ofBool r ++ BitVec.ofBool t ++ BitVec.ofBool b : BitVec 8).getLsbD 0 = b ∧
    (0#5 ++ BitVec.ofBool r ++ BitVec.ofBool t ++ BitVec.ofBool b : BitVec 8).getLsbD 1 = t ∧
    (0#5 ++ BitVec.ofBool r ++ BitVec.ofBool t ++ BitVec.ofBool b : BitVec 8).getLsbD 2 = r ∧
    (0#5 ++ BitVec.ofBool r ++ BitVec.ofBool t ++ BitVec.ofBool b : BitVec 8).extractLsb' 3 5 = 0#5 := by
  revert r t b
  decide

/-- Settles O40: the fields of the low byte, then those of the high byte 8 places up. -/
theorem statusWordLayout : Obligations.StatusWordLayout := by
  intro s
  obtain ⟨hcode, h3, hdetail, h7⟩ := statusLow_fields s.detail s.code.bits
  obtain ⟨hbusy, htodv, hresv, hreserved⟩ := statusHigh_fields s.resv s.todv s.busy
  refine ⟨?_, ?_, ?_, ?_, ?_, ?_, ?_, ?_, rfl⟩ <;> unfold State.statusPort
  · rwa [BitVec.extractLsb'_append_eq_of_add_le (by decide)]
  · rwa [BitVec.getLsbD_append, if_pos (by decide)]
  · rwa [BitVec.extractLsb'_append_eq_of_add_le (by decide)]
  · rwa [BitVec.getLsbD_append, if_pos (by decide)]
  · rw [BitVec.getLsbD_append, if_neg (by decide), hbusy]
    exact busy_iff s
  · rwa [BitVec.getLsbD_append, if_neg (by decide)]
  · rwa [BitVec.getLsbD_append, if_neg (by decide)]
  · rwa [BitVec.extractLsb'_append_eq_of_le (by decide)]

/-! ### Port reads -/

/-- The port `tod` as a number (R23). -/
theorem todPort_eq (s : State) :
    s.todPort = BitVec.ofNat 24 (s.todH.toNat * 65536 + s.todM.toNat * 256 + s.todS.toNat) := by
  have hlow := toNat_append_byte (s.todH ++ s.todM : BitVec 16) s.todS
  have hhigh := toNat_append_byte s.todH s.todM
  apply BitVec.eq_of_toNat_eq
  have hlt := s.todPort.isLt
  rw [State.todPort] at hlt ⊢
  rw [BitVec.toNat_ofNat]
  omega

theorem step_readStatus (he : s.events = .readStatus :: rest) : step s = readStatus (s.setEvents rest) := by
  simp only [step, nextMove, he]

theorem step_readTod (he : s.events = .readTod :: rest) : step s = readTod (s.setEvents rest) := by
  simp only [step, nextMove, he]

theorem step_readRes (he : s.events = .readRes :: rest) : step s = readRes (s.setEvents rest) := by
  simp only [step, nextMove, he]

/-- Settles O41: each read is logged with the port's value, or is a fault while the port is unwritten. -/
theorem portReadsGiveTheRegisters : Obligations.PortReadsGiveTheRegisters := by
  intro s rest
  refine ⟨fun he => ?_, fun he hv => ?_, fun he hv => ?_, fun he hv => ?_, fun he hv => ?_⟩
  · rw [step_readStatus he]
    rfl
  · rw [step_readTod he, readTod, State.setEvents_todv, if_pos hv, todPort_eq]
    rfl
  · rw [step_readTod he, readTod, State.setEvents_todv, if_neg (by simp [hv])]
  · rw [step_readRes he, readRes, State.setEvents_resv, if_pos hv]
    rfl
  · rw [step_readRes he, readRes, State.setEvents_resv, if_neg (by simp [hv])]

end Sys2Proof.Machine
end

section
/-! PROOFS. What reaches the RTC's registers (20_memory rules R50, R52, R61): a change from outside, a byte sent after
the pointer, and CORE's own step. -/

namespace Sys2Proof.Machine

variable {s t : State}

/-! ### A change from outside -/

/-- Settles O46: the event is one write to the register space. -/
theorem rtcChangesOneRegister : Obligations.RtcChangesOneRegister := by
  intro s r b rest he hmem
  exact ⟨_, step_rtcSet he, Memory.read_write_same hmem, rfl, fun a ha => Memory.read_write_other ha⟩

/-! ### A byte sent after the pointer -/

/-- On CORE's turn in the three states that send a field, the byte sent is the field's and only SEQ changes besides
(R143 to R145). -/
theorem step_sendsField {es : List Event} {b : Byte} (turn : CoreTurn s es) (hr : s.env.stalled = false)
    (hb : s.seq = .wrS ∧ b = s.opdS ∨ s.seq = .wrM ∧ b = s.opdM ∨ s.seq = .wrH ∧ b = s.opdH) :
    ∃ q, step s = .next ((busSend b (s.setEvents es)).setSeq q) := by
  rw [step_of_coreTurn turn, sequencerStep_running (by simpa using hr)]
  rcases hb with ⟨hq, rfl⟩ | ⟨hq, rfl⟩ | ⟨hq, rfl⟩
  · exact ⟨.wrM, by simp only [sequencerMove, State.setEvents_seq, hq]; rfl⟩
  · exact ⟨.wrH, by simp only [sequencerMove, State.setEvents_seq, hq]; rfl⟩
  · exact ⟨.wrEnd, by simp only [sequencerMove, State.setEvents_seq, hq]; rfl⟩

/-- Settles O34: the byte sent is one write to the register space at the pointer, which advances (R52 (b)). -/
theorem sentBytesLandAtThePointer : Obligations.SentBytesLandAtThePointer := by
  intro s es turn hr hmem hf hp b hb
  obtain ⟨q, hstep⟩ := step_sendsField turn hr hb
  refine ⟨_, hstep, ?_⟩
  have hrtc : ((busSend b (s.setEvents es)).setSeq q).rtc = rtcAfterSend s.env.mode b s.rtc := rfl
  rw [hrtc, rtcAfterSend_further hf]
  exact ⟨pointerAfter_toNat hp, Memory.read_write_same hmem, fun a ha => Memory.read_write_other ha⟩

/-! ### CORE's own step -/

/-- In a sequence a byte is stored only by the write sequence, in one of the registers 0 to 2 (R50). -/
theorem RtcFollows.stores_below_three (inv : RtcFollows s) (hq : s.seq ∈ sendStates) (hf : s.rtc.firstByte = false) :
    s.seq.isWrite = true ∧ s.rtc.ptr.toNat < 3 := by
  unfold RtcFollows at inv
  simp only [sendStates, List.mem_cons, List.not_mem_nil, or_false] at hq
  rcases hq with hq | hq | hq | hq | hq <;> simp only [hq, hf] at inv ⊢
  · simp at inv
  · simp at inv
  · exact ⟨rfl, by omega⟩
  · exact ⟨rfl, by omega⟩
  · exact ⟨rfl, by omega⟩

/-- Outside the write sequence CORE's own step stores nothing: the one byte a read sends sets the pointer (R52 (a)). -/
theorem CoreMove.mem_eq (m : CoreMove s t) (inv : RtcFollows s) (hw : s.seq.isWrite = false) :
    t.rtc.mem = s.rtc.mem := by
  cases m with
  | rdPtr hq =>
    rw [RtcFollows, hq] at inv
    simp [rtcAfterSend_first inv.2]
  | wrBegin hq | wrPtr hq | wrS hq | wrM hq | wrH hq | wrEnd hq | wrNack hq =>
    rw [hq] at hw
    cases hw
  | _ => rfl

/-- Settles O53: the bytes stored go below register 3, and a lost write loses only registers 0 to 2. -/
theorem coreWritesOnlyRegistersZeroToTwo : Obligations.CoreWritesOnlyRegistersZeroToTwo := by
  intro s t es inv turn h
  rw [step_of_coreTurn turn] at h
  have m := CoreMove.of_sequencerStep h
  have hrtc : RtcFollows (s.setEvents es) := inv.rtc
  refine ⟨fun a ha => m.read_eq ?_ ?_, m.mem_eq hrtc⟩
  · rintro ⟨hq, hf, rfl⟩
    obtain ⟨-, hlt⟩ := hrtc.stores_below_three hq hf
    omega
  · rintro ⟨-, -, hlt⟩
    omega

end Sys2Proof.Machine
end

section
/-! PROOFS. Runs in which only CORE moves (70_reset_and_hazards rule R202): the steps of a sequence put together, up to
the shared pointer write and the receive loop. -/

namespace Sys2Proof.Machine

variable {s t u : State}

/-! ### Putting runs together -/

theorem run_one (h : step s = .next t) : Host.Core.run Sys2Proof.core 1 s = .next t := run_succ h

theorem run_trans {a b : Nat} (h : Host.Core.run Sys2Proof.core a s = .next t)
    (h' : Host.Core.run Sys2Proof.core b t = .next u) : Host.Core.run Sys2Proof.core (a + b) s = .next u :=
  (run_add b h).trans h'

/-- The collaborator answers, and of what comes from outside only command words are left, which wait while CORE is
busy (R195). -/
structure Undisturbed (s : State) : Prop where
  answers : s.env.stalled = false
  words : ∀ e ∈ s.events, e.isCommand = true

/-- A busy CORE that nothing disturbs takes the step of its sequencer state. -/
theorem Undisturbed.step (hu : Undisturbed s) (hb : s.seq ≠ .idle) : step s = sequencerMove s := by
  have turn : CoreTurn s s.events := by
    cases he : s.events with
    | nil => exact .inl ⟨he, rfl⟩
    | cons e rest =>
      have hc : e.isCommand = true := hu.words e (by simp [he])
      cases e with
      | command w => exact .inr (.inr ⟨hb, he, .inl ⟨w, rest, rfl⟩⟩)
      | _ => cases hc
  rw [step_of_coreTurn turn, State.setEvents_self, sequencerStep_running hu.answers]

/-- A run has ended once CORE is idle and no event is left. -/
theorem ended_of_idle (hq : s.seq = .idle) (he : s.events = []) : s.ended = true := by simp [State.ended, hq, he]

@[simp] theorem State.setSeq_setSeq (s : State) (q q' : SeqState) : (s.setSeq q).setSeq q' = s.setSeq q' := rfl

theorem State.setSeq_self {q : SeqState} (h : s.seq = q) : s.setSeq q = s := by
  subst h
  rfl

@[simp] theorem State.setSeq_coreView (s : State) (q : SeqState) :
    (s.setSeq q).coreView = { s.coreView with seq := q } := rfl

@[simp] theorem State.setStatus_coreView (s : State) (c : Code) (d : BitVec 3) :
    (s.setStatus c d).coreView = { s.coreView with code := c, detail := d } := rfl

@[simp] theorem State.setOpd_coreView (s : State) (h m sec : Byte) :
    (s.setOpd h m sec).coreView = { s.coreView with opdS := sec, opdM := m, opdH := h } := rfl

@[simp] theorem State.logCall_coreView (s : State) (c : BusCall) : (s.logCall c).coreView = s.coreView := rfl

/-! ### The pointer write -/

/-- The calls and the RTC after the pointer write that opens both sequences (R52 (a), R53). -/
def State.pointerWritten (s : State) : State :=
  { s with
    calls := pointerWrite ++ s.calls
    rtc := { s.rtc with writeOpen := true, firstByte := false, ptr := Config.ptrStart } }

theorem pointerWritten_eq (s : State) (q : SeqState) :
    busSend Config.ptrStart ((busBegin Config.devAddr s).setSeq q) = s.pointerWritten.setSeq q := rfl

section
variable (s : State)

@[simp] theorem pointerWritten_hourMode : s.pointerWritten.hourMode = s.hourMode := rfl
@[simp] theorem pointerWritten_env : s.pointerWritten.env = s.env := rfl
@[simp] theorem pointerWritten_events : s.pointerWritten.events = s.events := rfl
@[simp] theorem pointerWritten_calls : s.pointerWritten.calls = pointerWrite ++ s.calls := rfl
@[simp] theorem pointerWritten_coreView : s.pointerWritten.coreView = s.coreView := rfl
@[simp] theorem pointerWritten_opdS : s.pointerWritten.opdS = s.opdS := rfl
@[simp] theorem pointerWritten_opdM : s.pointerWritten.opdM = s.opdM := rfl
@[simp] theorem pointerWritten_opdH : s.pointerWritten.opdH = s.opdH := rfl
@[simp] theorem pointerWritten_mem : s.pointerWritten.rtc.mem = s.rtc.mem := rfl
@[simp] theorem pointerWritten_ptr : s.pointerWritten.rtc.ptr = Config.ptrStart := rfl
@[simp] theorem pointerWritten_firstByte : s.pointerWritten.rtc.firstByte = false := rfl
@[simp] theorem pointerWritten_present : s.pointerWritten.rtc.present = s.rtc.present := rfl

end

/-- The two steps of the pointer write, which the sequences number differently. -/
theorem run_pointerWrite {q q' : SeqState} (hu : Undisturbed s) (hb : s.seq ≠ .idle) (hq : q ≠ .idle)
    (h1 : sequencerMove s = .next ((busBegin Config.devAddr s).setSeq q))
    (h2 : sequencerMove ((busBegin Config.devAddr s).setSeq q) = .next (s.pointerWritten.setSeq q')) :
    Host.Core.run Sys2Proof.core 2 s = .next (s.pointerWritten.setSeq q') := by
  have hu' : Undisturbed ((busBegin Config.devAddr s).setSeq q) := ⟨hu.answers, hu.words⟩
  exact run_trans (run_one ((hu.step hb).trans h1)) (run_one ((hu'.step hq).trans h2))

/-- RD_BEGIN and RD_PTR (R121, R122). -/
theorem run_readOpens (hu : Undisturbed s) (hq : s.seq = .rdBegin) :
    Host.Core.run Sys2Proof.core 2 s = .next (s.pointerWritten.setSeq .rdEnd) :=
  run_pointerWrite (q := .rdPtr) hu (by simp [hq]) nofun (by rw [sequencerMove, hq]; rfl) rfl

/-- WR_BEGIN and WR_PTR (R141, R142). -/
theorem run_writeOpens (hu : Undisturbed s) (hq : s.seq = .wrBegin) :
    Host.Core.run Sys2Proof.core 2 s = .next (s.pointerWritten.setSeq .wrS) :=
  run_pointerWrite (q := .wrPtr) hu (by simp [hq]) nofun (by rw [sequencerMove, hq]; rfl) rfl

/-! ### The receive loop -/

/-- One BusReceive and where its byte goes (R125). -/
def receiveOne (s : State) : State := (busReceive s).receiveInto (answerByte s)

section
variable (s : State)

@[simp] theorem receiveOne_seq : (receiveOne s).seq = s.seq := by simp [receiveOne]
@[simp] theorem receiveOne_rxn : (receiveOne s).rxn = s.rxn := by simp [receiveOne]
@[simp] theorem receiveOne_rxi : (receiveOne s).rxi = s.rxi + 1#3 := by simp [receiveOne]
@[simp] theorem receiveOne_hourMode : (receiveOne s).hourMode = s.hourMode := by simp [receiveOne]
@[simp] theorem receiveOne_events : (receiveOne s).events = s.events := by simp [receiveOne]
@[simp] theorem receiveOne_stalled : (receiveOne s).env.stalled = s.env.stalled := by simp [receiveOne, afterByte]
@[simp] theorem receiveOne_mode : (receiveOne s).env.mode = s.env.mode := by simp [receiveOne, afterByte]
@[simp] theorem receiveOne_bytes : (receiveOne s).env.bytes = s.env.bytes.tail := by simp [receiveOne, afterByte]
@[simp] theorem receiveOne_rxq : (receiveOne s).rtc.rxq = s.rtc.rxq.tail := by simp [receiveOne]
@[simp] theorem receiveOne_ptr : (receiveOne s).rtc.ptr = s.rtc.ptr := by simp [receiveOne]

end

theorem Undisturbed.received (hu : Undisturbed s) : Undisturbed (receiveOne s) :=
  ⟨by simpa using hu.answers, by simpa using hu.words⟩

theorem step_rdRecv (hu : Undisturbed s) (hq : s.seq = .rdRecv) :
    step s = .next ((receiveOne s).setSeq (if s.rxi + 1#3 = s.rxn then .rdFin else .rdRecv)) := by
  rw [hu.step (by simp [hq]), sequencerMove, hq]
  rfl

/-- RD_RECV takes one step for each byte that is still to come, and RD_FIN follows (R125). -/
theorem run_receives {n : Nat} (hu : Undisturbed s) (hq : s.seq = .rdRecv)
    (hn : s.rxi.toNat + (n + 1) = s.rxn.toNat) :
    Host.Core.run Sys2Proof.core (n + 1) s = .next ((receiveOne^[n + 1] s).setSeq .rdFin) := by
  induction n generalizing s with
  | zero =>
    have hsucc := rxi_succ_toNat (i := s.rxi) (n := s.rxn) (by omega)
    have hlast : s.rxi + 1#3 = s.rxn := BitVec.eq_of_toNat_eq (by omega)
    have hstep := step_rdRecv hu hq
    rw [if_pos hlast] at hstep
    exact run_one hstep
  | succ n ih =>
    have hsucc := rxi_succ_toNat (i := s.rxi) (n := s.rxn) (by omega)
    have hmore : s.rxi + 1#3 ≠ s.rxn := fun h => by
      have := congrArg BitVec.toNat h
      omega
    have hstep := step_rdRecv hu hq
    rw [if_neg hmore, State.setSeq_self (by simpa using hq)] at hstep
    have hn' : (receiveOne s).rxi.toNat + (n + 1) = (receiveOne s).rxn.toNat := by
      rw [receiveOne_rxi, receiveOne_rxn, hsucc]
      omega
    rw [run_succ hstep, ih hu.received (by simpa using hq) hn']
    rfl

end Sys2Proof.Machine
end

section
/-! PROOFS. GETTIME ends whatever the environment answers (41_transport rules R120 to R130; 20_memory rule R61): from
the last state of the read sequence back to acceptance, how many steps are left. -/

namespace Sys2Proof.Machine

variable {s t u : State}

/-- GETTIME's acceptance from the channel in 24-hour mode (R120). -/
theorem step_gettime {rest : List Event} (hi : s.seq = .idle) (hh : s.hourMode = .h24)
    (he : s.events = .command 0x30000000#32 :: rest) : step s = .next (beginSequence .rdBegin (s.setEvents rest)) := by
  have hw : decode 0x30000000#32 = .instr .gettime := by decide
  have hi' : (s.setEvents rest).seq = .idle := hi
  rw [step_command hi he, acceptWord_of_decode hw, exec, execGettime, whenIdle_idle hi', State.setEvents_hourMode, hh]

/-- Listed counts within the contract of BusRequest, and free ones, are at most 7 (R58). -/
theorem answerCount_le_of_contract (h : ∀ n ∈ s.env.counts, n ≤ 7) : answerCount 7 s ≤ 7 := by
  cases hc : s.env.counts with
  | nil => exact answerCount_le hc
  | cons n rest =>
    have hn : answerCount 7 s = n := by simp [answerCount, hc]
    exact hn.trans_le (h n (by simp [hc]))

/-- RD_REQ with a count within the contract (R124). -/
theorem step_rdReq (hu : Undisturbed s) (hq : s.seq = .rdReq) (hn : answerCount 7 s ≤ 7) :
    step s = .next (((busRequest Config.devAddr 7 s).startReceive (BitVec.ofNat 3 (answerCount 7 s))).setSeq
      (if answerCount 7 s = 0 then .rdFin else .rdRecv)) := by
  rw [hu.step (by simp [hq]), sequencerMove, hq]
  exact if_neg (not_lt.2 hn)

/-! ### How many steps are left -/

/-- The run has ended with one of the codes of a GETTIME, and with TODV set where it is OK. -/
def GettimeEnded (t : State) : Prop :=
  t.ended = true ∧ (t.code = .ok ∧ t.todv = true ∨ t.code = .malformedRegisterData ∨ t.code = .transportFailure)

/-- Completing with one of these codes ends it. -/
theorem GettimeEnded.of_complete {c : Code} {d : BitVec 3} (he : s.events = [])
    (hc : c = .ok ∧ s.todv = true ∨ c = .malformedRegisterData ∨ c = .transportFailure) :
    GettimeEnded (complete c d s) := ⟨ended_of_idle rfl (by simpa using he), by simpa using hc⟩

/-- At most k steps lead to the end of the GETTIME. -/
def EndsWithin (k : Nat) (s : State) : Prop :=
  ∃ (j : Nat) (t : State), j ≤ k ∧ Host.Core.run Sys2Proof.core j s = .next t ∧ GettimeEnded t

theorem EndsWithin.of_ended (h : GettimeEnded s) : EndsWithin 0 s := ⟨0, s, le_rfl, rfl, h⟩

theorem EndsWithin.of_run {a k : Nat} (h : Host.Core.run Sys2Proof.core a s = .next u) (hu : EndsWithin k u) :
    EndsWithin (a + k) s := by
  obtain ⟨j, t, hj, hrun, ht⟩ := hu
  exact ⟨a + j, t, by omega, run_trans h hrun, ht⟩

theorem EndsWithin.mono {j k : Nat} (h : EndsWithin j s) (hjk : j ≤ k) : EndsWithin k s := by
  obtain ⟨i, t, hi, hrun, ht⟩ := h
  exact ⟨i, t, hi.trans hjk, hrun, ht⟩

/-- A GETTIME in 24-hour mode on which nothing from outside acts any more. -/
structure GettimeAlone (s : State) : Prop where
  hourMode : s.hourMode = .h24
  answers : s.env.stalled = false
  events : s.events = []

theorem GettimeAlone.undisturbed (h : GettimeAlone s) : Undisturbed s := ⟨h.answers, by simp [h.events]⟩

theorem GettimeAlone.setSeq (h : GettimeAlone s) (q : SeqState) : GettimeAlone (s.setSeq q) :=
  ⟨h.hourMode, h.answers, h.events⟩

theorem GettimeAlone.received (h : GettimeAlone s) : GettimeAlone (receiveOne s) :=
  ⟨by simpa using h.hourMode, by simpa using h.answers, by simpa using h.events⟩

/-- RD_FIN ends the command at once: a short read, a malformed one, or OK (R126, R127, R130). -/
theorem GettimeAlone.endsWithin_rdFin (h : GettimeAlone s) (hq : s.seq = .rdFin) : EndsWithin 1 s := by
  have hstep : step s = stepRdFin s := by rw [h.undisturbed.step (by simp [hq]), sequencerMove, hq]
  have hdone : ∃ t, stepRdFin s = .next t ∧ GettimeEnded t := by
    rw [stepRdFin, h.hourMode]
    split
    · exact ⟨_, rfl, .of_complete h.events (.inr (.inr rfl))⟩
    · refine ⟨_, rfl, ?_⟩
      unfold validateRead
      split
      · exact .of_complete h.events (.inr (.inl rfl))
      · exact .of_complete (by simpa using h.events) (.inl ⟨rfl, State.setTod_todv _ _ _ _⟩)
  obtain ⟨t, ht, hend⟩ := hdone
  exact .of_run (run_one (hstep.trans ht)) (.of_ended hend)

/-- RD_RECV: one step for each of at most 7 bytes, then RD_FIN (R125). -/
theorem GettimeAlone.endsWithin_rdRecv (h : GettimeAlone s) (hq : s.seq = .rdRecv) (hlt : s.rxi.toNat < s.rxn.toNat) :
    EndsWithin 8 s := by
  have hrxn := s.rxn.isLt
  obtain ⟨n, hn⟩ := Nat.exists_eq_add_of_lt hlt
  have hrun := run_receives (n := n) h.undisturbed hq (by omega)
  have hrest : GettimeAlone (receiveOne^[n + 1] s) :=
    Function.Iterate.rec GettimeAlone h (fun _ h' => h'.received) (n + 1)
  exact (EndsWithin.of_run hrun ((hrest.setSeq .rdFin).endsWithin_rdFin rfl)).mono (by omega)

/-- RD_REQ: a count within the contract leads to RD_RECV, or at once to RD_FIN (R124). -/
theorem GettimeAlone.endsWithin_rdReq (h : GettimeAlone s) (hq : s.seq = .rdReq) (hn : answerCount 7 s ≤ 7) :
    EndsWithin 9 s := by
  have hrest : GettimeAlone ((busRequest Config.devAddr 7 s).startReceive (BitVec.ofNat 3 (answerCount 7 s))) :=
    ⟨by simpa using h.hourMode, by simpa [afterCount] using h.answers, by simpa using h.events⟩
  refine .of_run (run_one (step_rdReq h.undisturbed hq hn)) (k := 8) ?_
  split
  · exact ((hrest.setSeq .rdFin).endsWithin_rdFin rfl).mono (by decide)
  · next h0 =>
    refine (hrest.setSeq .rdRecv).endsWithin_rdRecv rfl ?_
    simpa [ofNat_count_toNat hn] using Nat.pos_of_ne_zero h0

/-- RD_END: without an acknowledgment the command ends, otherwise RD_REQ follows (R123). -/
theorem GettimeAlone.endsWithin_rdEnd (h : GettimeAlone s) (hq : s.seq = .rdEnd) (hc : ∀ n ∈ s.env.counts, n ≤ 7) :
    EndsWithin 10 s := by
  have hstep : step s = stepRdEnd s := by rw [h.undisturbed.step (by simp [hq]), sequencerMove, hq]
  rw [stepRdEnd] at hstep
  split at hstep
  · have hrest : GettimeAlone (busEnd s) :=
      ⟨by simpa using h.hourMode, by simpa [afterAck] using h.answers, by simpa using h.events⟩
    exact .of_run (run_one hstep) ((hrest.setSeq .rdReq).endsWithin_rdReq rfl (answerCount_le_of_contract hc))
  · have hend : GettimeEnded (raiseCondition .transportFailure detailNack (busEnd s)) :=
      .of_complete (by simpa using h.events) (.inr (.inr rfl))
    exact (EndsWithin.of_run (run_one hstep) (.of_ended hend)).mono (by decide)

/-- Settles O30: acceptance, the two steps of the pointer write, and at most 10 from RD_END. -/
theorem gettimeEndsForEveryEnvironment : Obligations.GettimeEndsForEveryEnvironment := by
  intro s hi hh hr he hc
  have hrest : GettimeAlone (beginSequence .rdBegin (s.setEvents [])) := ⟨hh, hr, rfl⟩
  have hopened : GettimeAlone ((beginSequence .rdBegin (s.setEvents [])).pointerWritten.setSeq .rdEnd) := ⟨hh, hr, rfl⟩
  have hrun := run_trans (run_one (step_gettime hi hh he)) (run_readOpens hrest.undisturbed rfl)
  obtain ⟨k, t, hk, ht, hend, hcode⟩ := EndsWithin.of_run hrun (hopened.endsWithin_rdEnd rfl hc)
  exact ⟨k, t, hk, ht, hend, hcode⟩

end Sys2Proof.Machine
end

section
/-! PROOFS. SETTIME on the bus (41_transport rules R140 to R147; 20_memory rule R52): acceptance, the pointer write, the
three bytes, and an acknowledged end. -/

namespace Sys2Proof.Machine

variable {s t : State}

/-! ### Acceptance -/

/-- The word of a SETTIME decodes to it. -/
theorem decode_encode_settime (h m sec : Byte) : decode (encode (.settime h m sec)) = .instr (.settime h m sec) := by
  have hw := encode_settime_toNat h m sec
  have hh := h.isLt
  have hm := m.isLt
  have hs := sec.isLt
  have f2 : fieldF2 (encode (.settime h m sec)) = h := BitVec.eq_of_toNat_eq (by rw [fieldF2_toNat]; omega)
  have f1 : fieldF1 (encode (.settime h m sec)) = m := BitVec.eq_of_toNat_eq (by rw [fieldF1_toNat]; omega)
  have f0 : fieldF0 (encode (.settime h m sec)) = sec := BitVec.eq_of_toNat_eq (by rw [fieldF0_toNat]; omega)
  rcases decode_cases (encode (.settime h m sec)) with ⟨hn, -⟩ | ⟨hn, -⟩ | ⟨hn, -⟩ | ⟨-, hd⟩ | ⟨-, -, -, hn, -⟩
  · omega
  · omega
  · omega
  · rw [hd, f2, f1, f0]
  · omega

/-- SETTIME's acceptance from the channel with a time of day (R140). -/
theorem step_settime {h m sec : Byte} {rest : List Event} (hi : s.seq = .idle) (ht : IsTimeOfDay h m sec)
    (he : s.events = .command (encode (.settime h m sec)) :: rest) :
    step s = .next (beginSequence .wrBegin ((s.setEvents rest).setOpd (enc8 h) (enc8 m) (enc8 sec))) := by
  have hi' : (s.setEvents rest).seq = .idle := hi
  have hd : ¬ detailTime h m sec ≠ 0#3 := not_not.2 ((detailTime_eq_zero h m sec).2 ht)
  rw [step_command hi he, acceptWord_of_decode (decode_encode_settime h m sec), exec, execSettime, whenIdle_idle hi',
    if_neg hd]

/-! ### The three bytes -/

/-- Registers 0, 1, 2 become sec, min, hour. -/
def Memory.writeTime (mem : Memory) (hour min sec : Byte) : Memory :=
  Memory.write (Memory.write (Memory.write mem 0 sec) 1 min) 2 hour

theorem Memory.wf_writeTime {mem : Memory} {hour min sec : Byte} (h : Memory.wf mem = true) :
    Memory.wf (Memory.writeTime mem hour min sec) = true :=
  Memory.wf_write (Memory.wf_write (Memory.wf_write h (by decide)) (by decide)) (by decide)

/-- What the registers read as after the three bytes. -/
theorem Memory.read_writeTime {mem : Memory} {hour min sec : Byte} (h : Memory.wf mem = true) :
    Memory.read (Memory.writeTime mem hour min sec) 0 = sec ∧ Memory.read (Memory.writeTime mem hour min sec) 1 = min ∧
    Memory.read (Memory.writeTime mem hour min sec) 2 = hour ∧
    ∀ a : Nat, 3 ≤ a → Memory.read (Memory.writeTime mem hour min sec) a = Memory.read mem a := by
  have h0 : Memory.wf (Memory.write mem 0 sec) = true := Memory.wf_write h (by decide)
  have h1 : Memory.wf (Memory.write (Memory.write mem 0 sec) 1 min) = true := Memory.wf_write h0 (by decide)
  unfold Memory.writeTime
  refine ⟨?_, ?_, Memory.read_write_same h1, fun a ha => ?_⟩
  · rw [Memory.read_write_other (by decide), Memory.read_write_other (by decide), Memory.read_write_same h]
  · rw [Memory.read_write_other (by decide), Memory.read_write_same h0]
  · rw [Memory.read_write_other (by omega), Memory.read_write_other (by omega), Memory.read_write_other (by omega)]

/-- The calls and the RTC after OPD is sent to the registers from 0 on (R52 (b), R143 to R145). -/
def State.timeSent (s : State) : State :=
  { s with
    calls := .send s.opdH :: .send s.opdM :: .send s.opdS :: s.calls
    rtc := { s.rtc with mem := Memory.writeTime s.rtc.mem s.opdH s.opdM s.opdS, ptr := 3#8 } }

section
variable (s : State)

@[simp] theorem timeSent_hourMode : s.timeSent.hourMode = s.hourMode := rfl
@[simp] theorem timeSent_env : s.timeSent.env = s.env := rfl
@[simp] theorem timeSent_events : s.timeSent.events = s.events := rfl
@[simp] theorem timeSent_calls :
    s.timeSent.calls = .send s.opdH :: .send s.opdM :: .send s.opdS :: s.calls := rfl
@[simp] theorem timeSent_coreView : s.timeSent.coreView = s.coreView := rfl
@[simp] theorem timeSent_mem : s.timeSent.rtc.mem = Memory.writeTime s.rtc.mem s.opdH s.opdM s.opdS := rfl
@[simp] theorem timeSent_ptr : s.timeSent.rtc.ptr = 3#8 := rfl
@[simp] theorem timeSent_present : s.timeSent.rtc.present = s.rtc.present := rfl

end

/-- Within registers 0 to 6 the pointer advances by one, in both modes. -/
theorem pointerAfter_eq {mode : EnvMode} {p : Byte} (h : p.toNat ≤ 6) : pointerAfter mode p = p + 1#8 := by
  cases mode with
  | reference => rfl
  | free => exact if_pos h

/-- Three bytes sent from register 0 on. -/
theorem rtcAfterSend_time {mode : EnvMode} {r : Rtc} {b0 b1 b2 : Byte} (hf : r.firstByte = false)
    (hp : r.ptr = 0#8) :
    rtcAfterSend mode b2 (rtcAfterSend mode b1 (rtcAfterSend mode b0 r)) =
      { r with mem := Memory.writeTime r.mem b2 b1 b0, ptr := 3#8 } := by
  have p0 : pointerAfter mode 0#8 = 1#8 := pointerAfter_eq (by decide)
  have p1 : pointerAfter mode 1#8 = 2#8 := pointerAfter_eq (by decide)
  have p2 : pointerAfter mode 2#8 = 3#8 := pointerAfter_eq (by decide)
  simp [rtcAfterSend, hf, hp, p0, p1, p2, Memory.writeTime]

/-- WR_S, WR_M and WR_H from register 0 on. -/
theorem run_sendsTime (hu : Undisturbed s) (hq : s.seq = .wrS) (hf : s.rtc.firstByte = false)
    (hp : s.rtc.ptr = 0#8) : Host.Core.run Sys2Proof.core 3 s = .next (s.timeSent.setSeq .wrEnd) := by
  have sent (u : State) (b : Byte) (q : SeqState) (hv : Undisturbed u) : Undisturbed ((busSend b u).setSeq q) :=
    ⟨hv.answers, hv.words⟩
  have h1 : step s = .next ((busSend s.opdS s).setSeq .wrM) := by
    rw [hu.step (by simp [hq]), sequencerMove, hq]
    rfl
  have hu1 := sent s s.opdS .wrM hu
  have hu2 := sent _ s.opdM .wrH hu1
  have hrun := run_trans (run_one h1) (run_trans (run_one (hu1.step nofun)) (run_one (hu2.step nofun)))
  rw [State.timeSent, ← rtcAfterSend_time (mode := s.env.mode) hf hp]
  exact hrun

/-! ### The whole sequence -/

/-- CORE in WR_END after a SETTIME of h, m, sec was accepted and sent, with the events rest left. -/
def settimeSent (h m sec : Byte) (rest : List Event) (s : State) : State :=
  (beginSequence .wrBegin
    ((s.setEvents rest).setOpd (enc8 h) (enc8 m) (enc8 sec))).pointerWritten.timeSent.setSeq .wrEnd

section
variable (h m sec : Byte) (rest : List Event) (s : State)

@[simp] theorem settimeSent_hourMode : (settimeSent h m sec rest s).hourMode = s.hourMode := by simp [settimeSent]
@[simp] theorem settimeSent_env : (settimeSent h m sec rest s).env = s.env := by simp [settimeSent]
@[simp] theorem settimeSent_events : (settimeSent h m sec rest s).events = rest := by simp [settimeSent]
@[simp] theorem settimeSent_ptr : (settimeSent h m sec rest s).rtc.ptr = 3#8 := by simp [settimeSent]
@[simp] theorem settimeSent_present : (settimeSent h m sec rest s).rtc.present = s.rtc.present := by simp [settimeSent]

@[simp] theorem settimeSent_mem :
    (settimeSent h m sec rest s).rtc.mem = Memory.writeTime s.rtc.mem (enc8 h) (enc8 m) (enc8 sec) := by
  simp [settimeSent]

@[simp] theorem settimeSent_calls : (settimeSent h m sec rest s).calls =
    .send (enc8 h) :: .send (enc8 m) :: .send (enc8 sec) :: (pointerWrite ++ s.calls) := by simp [settimeSent]

@[simp] theorem settimeSent_coreView : (settimeSent h m sec rest s).coreView =
    { s.coreView with
      seq := .wrEnd, code := .pending, detail := 0#3, opdS := enc8 sec, opdM := enc8 m, opdH := enc8 h } := by
  simp [settimeSent]

/-- BusEnd's answer is the one the environment had when the SETTIME was accepted. -/
@[simp] theorem answerAck_settimeSent : answerAck (settimeSent h m sec rest s) = answerAck s := by
  simp [answerAck]

end

/-- Acceptance and the five calls before BusEnd are six steps. -/
theorem run_settimeSent {h m sec : Byte} {rest : List Event} (hi : s.seq = .idle) (hr : s.env.stalled = false)
    (ht : IsTimeOfDay h m sec) (he : s.events = .command (encode (.settime h m sec)) :: rest)
    (hrest : ∀ e ∈ rest, e.isCommand = true) :
    Host.Core.run Sys2Proof.core 6 s = .next (settimeSent h m sec rest s) := by
  have hu1 : Undisturbed (beginSequence .wrBegin ((s.setEvents rest).setOpd (enc8 h) (enc8 m) (enc8 sec))) :=
    ⟨by simpa using hr, by simpa using hrest⟩
  have hu2 : Undisturbed ((beginSequence .wrBegin
      ((s.setEvents rest).setOpd (enc8 h) (enc8 m) (enc8 sec))).pointerWritten.setSeq .wrS) :=
    ⟨by simpa using hr, by simpa using hrest⟩
  exact run_trans (run_one (step_settime hi ht he)) (run_trans (run_writeOpens hu1 rfl) (run_sendsTime hu2 rfl rfl rfl))

/-- CORE after a SETTIME whose BusEnd is acknowledged (R146). -/
def settimeDone (h m sec : Byte) (rest : List Event) (s : State) : State :=
  complete .ok 0#3 (busEnd (settimeSent h m sec rest s))

theorem run_settimeDone {h m sec : Byte} {rest : List Event} (hi : s.seq = .idle) (hr : s.env.stalled = false)
    (ht : IsTimeOfDay h m sec) (he : s.events = .command (encode (.settime h m sec)) :: rest)
    (hrest : ∀ e ∈ rest, e.isCommand = true) (ha : answerAck s = true) :
    Host.Core.run Sys2Proof.core 7 s = .next (settimeDone h m sec rest s) := by
  have hu : Undisturbed (settimeSent h m sec rest s) :=
    ⟨by simpa using hr, by simpa using hrest⟩
  have hend : step (settimeSent h m sec rest s) = .next (settimeDone h m sec rest s) := by
    rw [hu.step nofun]
    exact if_pos ((answerAck_settimeSent h m sec rest s).trans ha)
  exact run_trans (run_settimeSent hi hr ht he hrest) (run_one hend)

/-! ### What an acknowledged SETTIME leaves of the machine -/

section
variable (h m sec : Byte) (rest : List Event)

@[simp] theorem settimeDone_seq : (settimeDone h m sec rest s).seq = .idle := by simp [settimeDone]

@[simp] theorem settimeDone_events : (settimeDone h m sec rest s).events = rest := by simp [settimeDone]

@[simp] theorem settimeDone_hourMode : (settimeDone h m sec rest s).hourMode = s.hourMode := by
  simp [settimeDone]

@[simp] theorem settimeDone_env : (settimeDone h m sec rest s).env = afterAck s.env := by
  simp [settimeDone]

@[simp] theorem settimeDone_mem :
    (settimeDone h m sec rest s).rtc.mem = Memory.writeTime s.rtc.mem (enc8 h) (enc8 m) (enc8 sec) := by
  simp [settimeDone, rtcAfterEnd]

@[simp] theorem settimeDone_present : (settimeDone h m sec rest s).rtc.present = s.rtc.present := by
  simp [settimeDone, rtcAfterEnd]

theorem settimeDone_ptr (ha : answerAck s = true) : (settimeDone h m sec rest s).rtc.ptr = 3#8 := by
  simp [settimeDone, ha, rtcAfterEnd]

theorem settimeDone_calls (ha : answerAck s = true) :
    (settimeDone h m sec rest s).calls =
      .finish true :: .send (enc8 h) :: .send (enc8 m) :: .send (enc8 sec) :: (pointerWrite ++ s.calls) := by
  simp [settimeDone, ha]

theorem settimeDone_coreView (hi : s.seq = .idle) :
    (settimeDone h m sec rest s).coreView =
      { s.coreView with code := .ok, detail := 0#3, opdS := enc8 sec, opdM := enc8 m, opdH := enc8 h } := by
  have hq : s.coreView.seq = .idle := hi
  simp [settimeDone, hq]

end

/-- Settles O36: the run of `run_settimeDone` and what it leaves. -/
theorem acknowledgedWriteTakesSevenSteps : Obligations.AcknowledgedWriteTakesSevenSteps := by
  intro s h m sec acks hi hr hmem ht he hacks
  have ha : answerAck s = true := by simp [answerAck, hacks]
  obtain ⟨h0, h1, h2, hothers⟩ :=
    Memory.read_writeTime (hour := enc8 h) (min := enc8 m) (sec := enc8 sec) hmem
  refine ⟨_, run_settimeDone hi hr ht he nofun ha, ended_of_idle (settimeDone_seq ..) (settimeDone_events ..), ?_,
    settimeDone_coreView h m sec [] hi, ?_⟩
  · rw [State.observe, settimeDone_calls h m sec [] ha]
    simp [State.observe, pointerWrite, Config.ptrStart, Config.devAddr]
  · rw [settimeDone_mem]
    exact ⟨h0, h1, h2, hothers, settimeDone_ptr h m sec [] ha⟩

end Sys2Proof.Machine
end

section
/-! PROOFS. SETTIME and then GETTIME on the reference environment (20_memory rules R52, R71; 40_codec rule R110;
41_transport rules R124 to R130, R147): the bytes received are the registers written. -/

namespace Sys2Proof.Machine

variable {s t : State}

/-! ### The encoded fields of a time of day -/

theorem hi_enc8 {v : Byte} (h : v.toNat ≤ 99) : hi (enc8 v) = v.toNat / 10 := by
  rw [hi, enc8_toNat h]
  omega

theorem lo_enc8 {v : Byte} (h : v.toNat ≤ 99) : lo (enc8 v) = v.toNat % 10 := by
  rw [lo, enc8_toNat h]
  omega

theorem bcdOk_enc8 {v : Byte} (h : v.toNat ≤ 99) : bcdOk (enc8 v) = true := by
  rw [bcdOk_iff, hi_enc8 h, lo_enc8 h]
  omega

theorem dec8_enc8 {v : Byte} (h : v.toNat ≤ 99) : dec8 (enc8 v) = v := by
  apply BitVec.eq_of_toNat_eq
  rw [dec8_toNat, hi_enc8 h, lo_enc8 h]
  omega

/-- The clock-halt bit of a byte below 128 is clear already. -/
theorem maskClockHalt_of_lt {b : Byte} (h : b.toNat < 128) : maskClockHalt b = b := by
  apply BitVec.eq_of_toNat_eq
  have hm : b.toNat &&& 127 = b.toNat % 128 := Nat.and_two_pow_sub_one_eq_mod b.toNat 7
  rw [maskClockHalt, BitVec.toNat_and]
  exact hm.trans (Nat.mod_eq_of_lt h)

/-- RD_FIN with the encoded fields of a time of day received completes with OK and that time (R127, R130). -/
theorem stepRdFin_encoded {h m sec : Byte} (ht : IsTimeOfDay h m sec) (hn : s.rxn = 7#3) (hh : s.hourMode = .h24)
    (h0 : s.rxb0 = enc8 sec) (h1 : s.rxb1 = enc8 m) (h2 : s.rxb2 = enc8 h) :
    stepRdFin s = .next (complete .ok 0#3 (s.setTod h m sec)) := by
  obtain ⟨hhour, hmin, hsec⟩ := ht
  simp only [Config.maxH, Config.maxM, Config.maxS] at hhour hmin hsec
  have vh : h.toNat ≤ 99 := by omega
  have vm : m.toNat ≤ 99 := by omega
  have vs : sec.toNat ≤ 99 := by omega
  have hraw : rawSeconds s = enc8 sec := by
    rw [rawSeconds, h0, maskClockHalt_of_lt]
    rw [enc8_toNat vs]
    omega
  have hdetail : readDetail s = 0#3 := by
    rw [readDetail, rawHours, rawMinutes, hraw, h1, h2, detailFields, mask3_eq_zero]
    simp [hoursOut, minutesOut, secondsOut, bcdOk_enc8, dec8_enc8, vh, vm, vs, Config.maxH, Config.maxM, Config.maxS,
      hhour, hmin, hsec]
  have hfull : ¬ s.rxn.toNat < Config.readCount := by
    rw [hn]
    decide
  rw [stepRdFin, if_neg hfull, hh, validateRead, if_neg (not_not.2 hdetail), rawHours, rawMinutes, hraw, h1, h2,
    dec8_enc8 vh, dec8_enc8 vm, dec8_enc8 vs]

/-! ### The bytes a read receives -/

/-- The answers of the first n calls of BusReceive from s on. -/
def answeredBytes (n : Nat) (s : State) : List Byte := (List.range n).map fun i => answerByte (receiveOne^[i] s)

/-- What n receives leave as it is. -/
theorem receives_keep (n : Nat) (s : State) :
    (receiveOne^[n] s).hourMode = s.hourMode ∧ (receiveOne^[n] s).events = s.events ∧
    (receiveOne^[n] s).env.stalled = s.env.stalled ∧ (receiveOne^[n] s).env.mode = s.env.mode ∧
    (receiveOne^[n] s).rxn = s.rxn ∧ (receiveOne^[n] s).rtc.ptr = s.rtc.ptr := by
  induction n with
  | zero => simp
  | succ n ih => simpa [Function.iterate_succ_apply'] using ih

/-- From RXI = 0 on, RXI counts the bytes received, and the first three are kept (R125). -/
theorem receives_keepFirstThree {n : Nat} (h0 : s.rxi = 0#3) (hn : n ≤ 7) :
    (receiveOne^[n] s).rxi.toNat = n ∧
    KeepsFirstThree (receiveOne^[n] s).rxb0 (receiveOne^[n] s).rxb1 (receiveOne^[n] s).rxb2 (answeredBytes n s) := by
  induction n with
  | zero => simp [h0, answeredBytes, KeepsFirstThree]
  | succ n ih =>
    obtain ⟨hi, hk⟩ := ih (by omega)
    have hl : (answeredBytes n s).length = (receiveOne^[n] s).rxi.toNat := by simp [answeredBytes, hi]
    have hb : answeredBytes (n + 1) s = answeredBytes n s ++ [answerByte (receiveOne^[n] s)] := by
      simp [answeredBytes, List.range_succ]
    rw [Function.iterate_succ_apply', hb]
    refine ⟨?_, hk.receiveInto hl⟩
    rw [receiveOne_rxi, BitVec.toNat_add, hi]
    simp only [BitVec.toNat_ofNat]
    omega

/-- With no byte listed, the reference environment answers the first byte that waits (R71). -/
theorem answerByte_reference {b : Byte} {q : List Byte} (hm : s.env.mode = .reference) (hb : s.env.bytes = [])
    (hq : s.rtc.rxq = b :: q) : answerByte s = b := by simp [answerByte, hm, hb, hq]

/-- With no byte listed, the reference environment's answers are the bytes that wait, in order (R71). -/
theorem answeredBytes_reference {n : Nat} (hm : s.env.mode = .reference) (hb : s.env.bytes = [])
    (hn : n ≤ s.rtc.rxq.length) : answeredBytes n s = s.rtc.rxq.take n := by
  have queue (i : Nat) : (receiveOne^[i] s).env.bytes = [] ∧ (receiveOne^[i] s).rtc.rxq = s.rtc.rxq.drop i := by
    induction i with
    | zero => simp [hb]
    | succ i ih => simp [Function.iterate_succ_apply', ih.1, ih.2]
  apply List.ext_getElem
  · simp [answeredBytes, hn]
  · intro i hi _
    have hi' : i < s.rtc.rxq.length := by
      rw [answeredBytes, List.length_map, List.length_range] at hi
      omega
    obtain ⟨hbytes, hrxq⟩ := queue i
    rw [List.drop_eq_getElem_cons hi'] at hrxq
    obtain ⟨-, -, -, hmode, -⟩ := receives_keep i s
    simp [answeredBytes, answerByte_reference (hmode.trans hm) hbytes hrxq]

/-- The bytes of a request are the registers from the pointer on (R52 (c)). -/
theorem bytesFrom_eq {mode : EnvMode} {mem : Memory} {p : Byte} {n : Nat} (h : p.toNat + n ≤ 7) :
    bytesFrom mode mem p n = (List.range n).map fun i => Memory.read mem (p.toNat + i) := by
  induction n generalizing p with
  | zero => rfl
  | succ n ih =>
    have hp := pointerAfter_toNat (mode := mode) (p := p) (by omega)
    rw [bytesFrom, ih (by omega), hp, List.range_succ_eq_map, List.map_cons, List.map_map]
    simp [Function.comp_def, Nat.add_assoc, Nat.add_comm 1]

/-! ### A read from acceptance to RD_FIN -/

/-- CORE in RD_REQ after a GETTIME was accepted and its pointer write acknowledged (R120 to R123). -/
def readAddressed (s : State) : State :=
  (busEnd ((beginSequence .rdBegin (s.setEvents [])).pointerWritten.setSeq .rdEnd)).setSeq .rdReq

/-- CORE in RD_RECV after the request that follows (R124). -/
def readRequested (s : State) : State :=
  ((busRequest Config.devAddr 7 (readAddressed s)).startReceive
    (BitVec.ofNat 3 (answerCount 7 (readAddressed s)))).setSeq .rdRecv

section
variable (s : State)

@[simp] theorem readAddressed_hourMode : (readAddressed s).hourMode = s.hourMode := by simp [readAddressed]
@[simp] theorem readAddressed_env : (readAddressed s).env = afterAck s.env := by simp [readAddressed]
@[simp] theorem readAddressed_events : (readAddressed s).events = [] := by simp [readAddressed]
@[simp] theorem readAddressed_mem : (readAddressed s).rtc.mem = s.rtc.mem := by simp [readAddressed, rtcAfterEnd]

end

section
variable (s : State)

@[simp] theorem readRequested_hourMode : (readRequested s).hourMode = s.hourMode := by simp [readRequested]
@[simp] theorem readRequested_events : (readRequested s).events = [] := by simp [readRequested]
@[simp] theorem readRequested_env : (readRequested s).env = afterCount (afterAck s.env) := by simp [readRequested]
@[simp] theorem readRequested_rxi : (readRequested s).rxi = 0#3 := by simp [readRequested]
@[simp] theorem readRequested_rxn : (readRequested s).rxn = BitVec.ofNat 3 (answerCount 7 (readAddressed s)) := by
  simp [readRequested]

end

/-- Acceptance, the pointer write and its acknowledgment are four steps. -/
theorem run_readAddressed (hi : s.seq = .idle) (hh : s.hourMode = .h24) (hr : s.env.stalled = false)
    (he : s.events = [.command 0x30000000#32]) (ha : answerAck s = true) :
    Host.Core.run Sys2Proof.core 4 s = .next (readAddressed s) := by
  have hu1 : Undisturbed (beginSequence .rdBegin (s.setEvents [])) := ⟨by simpa using hr, by simp⟩
  have hu2 : Undisturbed ((beginSequence .rdBegin (s.setEvents [])).pointerWritten.setSeq .rdEnd) :=
    ⟨by simpa using hr, by simp⟩
  have ha2 : answerAck ((beginSequence .rdBegin (s.setEvents [])).pointerWritten.setSeq .rdEnd) = true := by
    simpa [answerAck] using ha
  have hend : step ((beginSequence .rdBegin (s.setEvents [])).pointerWritten.setSeq .rdEnd) =
      .next (readAddressed s) := by
    rw [hu2.step nofun]
    exact if_pos ha2
  exact run_trans (run_one (step_gettime hi hh he)) (run_trans (run_readOpens hu1 rfl) (run_one hend))

/-- With a count from 1 to 7 answered, the request and the receives follow. -/
theorem run_readReceived {n : Nat} (hi : s.seq = .idle) (hh : s.hourMode = .h24) (hr : s.env.stalled = false)
    (he : s.events = [.command 0x30000000#32]) (ha : answerAck s = true) (hn : answerCount 7 (readAddressed s) = n + 1)
    (hn7 : n + 1 ≤ 7) :
    Host.Core.run Sys2Proof.core (5 + (n + 1)) s = .next ((receiveOne^[n + 1] (readRequested s)).setSeq .rdFin) := by
  have hu1 : Undisturbed (readAddressed s) := ⟨by simpa [afterAck] using hr, by simp⟩
  have hu2 : Undisturbed (readRequested s) :=
    ⟨by simpa [afterCount, afterAck] using hr, by simp⟩
  have hreq : step (readAddressed s) = .next (readRequested s) := by
    rw [step_rdReq hu1 rfl (hn.trans_le hn7), if_neg (by omega), readRequested]
  have hcount : (readRequested s).rxi.toNat + (n + 1) = (readRequested s).rxn.toNat := by
    simp [hn, ofNat_count_toNat hn7]
  exact run_trans (run_trans (run_readAddressed hi hh hr he ha) (run_one hreq)) (run_receives hu2 rfl hcount)

/-- The request makes the first n registers wait, and passes them (R52 (c), R53). -/
theorem readRequested_rtc {n : Nat} (ha : answerAck s = true) (hn : answerCount 7 (readAddressed s) = n) (hn7 : n ≤ 7) :
    (readRequested s).rtc.rxq = (List.range n).map (Memory.read s.rtc.mem) ∧ (readRequested s).rtc.ptr.toNat = n := by
  have hack : answerAck ((beginSequence .rdBegin (s.setEvents [])).pointerWritten.setSeq .rdEnd) = true := by
    simpa [answerAck] using ha
  have hp : (readAddressed s).rtc.ptr = Config.ptrStart := by
    rw [readAddressed, busEnd_eq, hack]
    simp [rtcAfterEnd]
  have hp0 : Config.ptrStart.toNat = 0 := rfl
  have hrtc : (readRequested s).rtc = rtcAfterRequest (afterAck s.env).mode n (readAddressed s).rtc := by
    simp [readRequested, hn]
  rw [hrtc, rtcAfterRequest, hp, bytesFrom_eq (by omega), pointerAfterAll_toNat (by omega), hp0]
  simp

/-! ### Write, then read -/

/-- CORE after a request for 7 bytes was answered in full and all were received (R125). -/
def fullyReceived (s : State) : State := receiveOne^[7] (readRequested s)

theorem fullyReceived_keeps (s : State) :
    (fullyReceived s).hourMode = s.hourMode ∧ (fullyReceived s).events = [] ∧
    (fullyReceived s).env.stalled = s.env.stalled ∧ (fullyReceived s).rxn = (readRequested s).rxn ∧
    (fullyReceived s).rtc.ptr = (readRequested s).rtc.ptr := by
  obtain ⟨hhour, hevents, hstalled, -, hrxn, hptr⟩ := receives_keep 7 (readRequested s)
  exact ⟨hhour.trans (readRequested_hourMode s), hevents.trans (readRequested_events s),
    hstalled.trans (by simp [afterCount, afterAck]), hrxn, hptr⟩

/-- On the reference environment with no byte listed, registers 0 to 2 are the bytes kept (R71, R127). -/
theorem fullyReceived_reference (hm : s.env.mode = .reference) (hb : s.env.bytes = []) (ha : answerAck s = true)
    (hn : answerCount 7 (readAddressed s) = 7) :
    (fullyReceived s).rxb0 = Memory.read s.rtc.mem 0 ∧ (fullyReceived s).rxb1 = Memory.read s.rtc.mem 1 ∧
    (fullyReceived s).rxb2 = Memory.read s.rtc.mem 2 := by
  obtain ⟨hrxq, -⟩ := readRequested_rtc ha hn le_rfl
  have hmode : (readRequested s).env.mode = .reference := by simpa [afterCount, afterAck] using hm
  have hbytes : (readRequested s).env.bytes = [] := by simpa [afterCount, afterAck] using hb
  have hanswers : answeredBytes 7 (readRequested s) = (List.range 7).map (Memory.read s.rtc.mem) := by
    rw [answeredBytes_reference hmode hbytes (by simp [hrxq]), hrxq]
    rfl
  obtain ⟨-, h0, h1, h2⟩ := receives_keepFirstThree (n := 7) (readRequested_rxi s) le_rfl
  rw [hanswers] at h0 h1 h2
  exact ⟨h0 _ rfl, h1 _ rfl, h2 _ rfl⟩

/-- A read on the reference environment of registers that hold a time of day, encoded, delivers it in thirteen steps. -/
theorem run_read_reference {h m sec : Byte} (hi : s.seq = .idle) (hh : s.hourMode = .h24) (hr : s.env.stalled = false)
    (he : s.events = [.command 0x30000000#32]) (hm : s.env.mode = .reference) (hb : s.env.bytes = [])
    (ha : answerAck s = true) (hn : answerCount 7 (readAddressed s) = 7) (ht : IsTimeOfDay h m sec)
    (h0 : Memory.read s.rtc.mem 0 = enc8 sec) (h1 : Memory.read s.rtc.mem 1 = enc8 m)
    (h2 : Memory.read s.rtc.mem 2 = enc8 h) :
    ∃ u : State, Host.Core.run Sys2Proof.core 13 s = .next (complete .ok 0#3 (u.setTod h m sec)) ∧
      u.events = [] ∧ u.rtc.ptr = 0x07#8 := by
  obtain ⟨r0, r1, r2⟩ := fullyReceived_reference hm hb ha hn
  obtain ⟨rhour, revents, rstalled, rn, rptr⟩ := fullyReceived_keeps s
  obtain ⟨-, hptr⟩ := readRequested_rtc ha hn le_rfl
  have hrxn : (fullyReceived s).rxn = 7#3 := by rw [rn, readRequested_rxn, hn]
  have hu : Undisturbed ((fullyReceived s).setSeq .rdFin) :=
    ⟨by simpa [rstalled] using hr, by simp [revents]⟩
  have hfin : step ((fullyReceived s).setSeq .rdFin) =
      stepRdFin ((fullyReceived s).setSeq .rdFin) := hu.step nofun
  rw [stepRdFin_encoded ht (by simpa using hrxn) (by simpa [rhour] using hh) (by simp [r0, h0]) (by simp [r1, h1])
    (by simp [r2, h2])] at hfin
  exact ⟨_, run_trans (run_readReceived hi hh hr he ha hn le_rfl) (run_one hfin), revents,
    rptr.trans (BitVec.eq_of_toNat_eq hptr)⟩

/-- Settles O38: the SETTIME leaves the encoded fields in registers 0 to 2, which the GETTIME reads. -/
theorem writeThenReadReturnsTheTime : Obligations.WriteThenReadReturnsTheTime := by
  intro s h m sec hi hh hmem ht he hmode hr hpresent hacks hcounts hbytes
  have ha : answerAck s = true := by simpa [answerAck, hacks, hmode] using hpresent
  have hwrite := run_settimeDone hi hr ht he (by simp [Event.isCommand]) ha
  obtain ⟨h0, h1, h2, -⟩ := Memory.read_writeTime (hour := enc8 h) (min := enc8 m) (sec := enc8 sec) hmem
  rw [← settimeDone_mem (s := s) h m sec [.command 0x30000000#32]] at h0 h1 h2
  generalize hd : settimeDone h m sec [.command 0x30000000#32] s = d at hwrite h0 h1 h2
  have henv : d.env = afterAck s.env := by rw [← hd, settimeDone_env]
  have had : answerAck d = true := by
    rw [← hd]
    simpa [answerAck, afterAck, hacks, hmode] using hpresent
  have hn : answerCount 7 (readAddressed d) = 7 := by simp [answerCount, afterAck, henv, hcounts, hmode]
  obtain ⟨u, hread, hevents, hptr⟩ := run_read_reference (s := d) (by rw [← hd, settimeDone_seq])
    (by rw [← hd, settimeDone_hourMode, hh]) (by simpa [henv, afterAck] using hr) (by rw [← hd, settimeDone_events])
    (by simpa [henv, afterAck] using hmode) (by simpa [henv, afterAck] using hbytes) had hn ht h0 h1 h2
  exact ⟨_, run_trans hwrite hread, ended_of_idle rfl (by simpa using hevents), by simp [hptr]⟩

end Sys2Proof.Machine
end

section
/-! PROOFS. The decoder, the encoder and the opcode map (30_encoding rules R81 to R87): what each row's words decode to, both
round trips, and the words that are no command's. -/

namespace Sys2Proof

open Machine

/-! ### The words of each row -/

theorem decode_of_rowEnc {w : Word} (h : w.toNat / 256 = 0x100000) : decode w = .instr (.enc (fieldF0 w)) := by
  rcases decode_cases w with ⟨-, hd⟩ | ⟨hn, -⟩ | ⟨hn, -⟩ | ⟨hn, -⟩ | ⟨hn, -⟩
  · exact hd
  all_goals omega

theorem decode_of_rowDec {w : Word} (h : w.toNat / 256 = 0x200000) : decode w = .instr (.dec (fieldF0 w)) := by
  rcases decode_cases w with ⟨hn, -⟩ | ⟨-, hd⟩ | ⟨hn, -⟩ | ⟨hn, -⟩ | ⟨-, hn, -⟩
  case inr.inl => exact hd
  all_goals omega

theorem decode_of_rowGettime {w : Word} (h : w.toNat = 0x30000000) : decode w = .instr .gettime := by
  rw [BitVec.eq_of_toNat_eq (y := 0x30000000#32) h]
  decide

theorem decode_of_rowSettime {w : Word} (h : w.toNat / 2 ^ 24 = 0x40) :
    decode w = .instr (.settime (fieldF2 w) (fieldF1 w) (fieldF0 w)) := by
  rcases decode_cases w with ⟨hn, -⟩ | ⟨hn, -⟩ | ⟨hn, -⟩ | ⟨-, hd⟩ | ⟨-, -, -, hn, -⟩
  case inr.inr.inr.inl => exact hd
  all_goals omega

/-! ### The round trips -/

theorem fieldF0_eq {w : Word} {b : Byte} (h : w.toNat % 256 = b.toNat) : fieldF0 w = b :=
  BitVec.eq_of_toNat_eq ((fieldF0_toNat w).trans h)

theorem decode_encode_enc (v : Byte) : decode (encode (.enc v)) = .instr (.enc v) := by
  have hw := encode_enc_toNat v
  have hv := v.isLt
  rw [decode_of_rowEnc (by omega), fieldF0_eq (b := v) (by omega)]

theorem decode_encode_dec (b : Byte) : decode (encode (.dec b)) = .instr (.dec b) := by
  have hw := encode_dec_toNat b
  have hb := b.isLt
  rw [decode_of_rowDec (by omega), fieldF0_eq (b := b) (by omega)]

/-- Settles O5: the word of each command is in the command's row, and its fields are the operands. -/
theorem decodeUndoesEncode : Obligations.DecodeUndoesEncode := by
  intro i
  cases i with
  | enc v => exact decode_encode_enc v
  | dec b => exact decode_encode_dec b
  | gettime => exact decode_of_rowGettime encode_gettime_toNat
  | settime h m s => exact decode_encode_settime h m s

/-- Settles O6: in each row the bits the mask keeps and the operand fields together are the whole word. -/
theorem encodeUndoesDecode : Obligations.EncodeUndoesDecode := by
  intro w i hi
  apply BitVec.eq_of_toNat_eq
  rcases decode_cases w with ⟨hn, hd⟩ | ⟨hn, hd⟩ | ⟨hn, hd⟩ | ⟨hn, hd⟩ | ⟨-, -, -, -, hd⟩ <;> rw [hd] at hi <;> cases hi
  · rw [encode_enc_toNat, fieldF0_toNat]
    omega
  · rw [encode_dec_toNat, fieldF0_toNat]
    omega
  · rw [encode_gettime_toNat, hn]
  · rw [encode_settime_toNat, fieldF2_toNat, fieldF1_toNat, fieldF0_toNat]
    omega

/-! ### The opcode map -/

/-- The encoder's word of a command selects the command's row (R84). -/
theorem row_selects_encode (i : Instr) : i.row.selects (encode i) = true := by
  cases i with
  | enc v => exact Laws.RowMatch.enc v
  | dec b => exact Laws.RowMatch.dec b
  | gettime => exact Laws.RowMatch.gettime
  | settime h m s => exact Laws.RowMatch.settime h m s

theorem OpRow.selects_iff (r : OpRow) (w : Word) : r.selects w = true ↔ w &&& r.mask = r.value := by
  simp [OpRow.selects]

/-- A word that selects a row decodes to a command of that row (R84). -/
theorem decode_of_selects {w : Word} {r : OpRow} (hr : r ∈ opRows) (h : r.selects w = true) :
    ∃ i : Instr, decode w = .instr i ∧ i.row = r := by
  simp only [opRows, List.mem_cons, List.not_mem_nil, or_false] at hr
  rcases hr with rfl | rfl | rfl | rfl
  · exact ⟨_, decode_of_rowEnc ((rowEnc_selects w).1 h), rfl⟩
  · exact ⟨_, decode_of_rowDec ((rowDec_selects w).1 h), rfl⟩
  · exact ⟨_, decode_of_rowGettime ((rowGettime_selects w).1 h), rfl⟩
  · exact ⟨_, decode_of_rowSettime ((rowSettime_selects w).1 h), rfl⟩

/-- Settles O7: a command's word is the encoder's, which selects its row; and a word that selects two rows would decode to
commands of both. -/
theorem decodeFollowsTheOpcodeMap : Obligations.DecodeFollowsTheOpcodeMap := by
  refine ⟨rfl, ?_, ?_, ?_⟩
  · intro w i hi
    have hsel := row_selects_encode i
    rw [encodeUndoesDecode w i hi] at hsel
    exact (OpRow.selects_iff _ _).1 hsel
  · intro w r hr h
    exact decode_of_selects hr ((OpRow.selects_iff r w).2 h)
  · intro w r r' hr hr' h h'
    obtain ⟨i, hi, rfl⟩ := decode_of_selects hr ((OpRow.selects_iff r w).2 h)
    obtain ⟨j, hj, rfl⟩ := decode_of_selects hr' ((OpRow.selects_iff r' w).2 h')
    rw [Decoded.instr.inj (hi.symm.trans hj)]

/-! ### The illegal words -/

/-- A word is no command's exactly when it is in no row (R85, R86). -/
theorem decode_illegal_iff (w : Word) : (∃ why, decode w = .illegal why) ↔
    w.toNat / 256 ≠ 0x100000 ∧ w.toNat / 256 ≠ 0x200000 ∧ w.toNat ≠ 0x30000000 ∧ w.toNat / 2 ^ 24 ≠ 0x40 := by
  constructor
  · rintro ⟨why, hw⟩
    rcases decode_cases w with ⟨-, hd⟩ | ⟨-, hd⟩ | ⟨-, hd⟩ | ⟨-, hd⟩ | ⟨henc, hdec, hget, hset, -⟩
    case inr.inr.inr.inr => exact ⟨henc, hdec, hget, hset⟩
    all_goals
      rw [hd] at hw
      cases hw
  · rintro ⟨henc, hdec, hget, hset⟩
    rcases decode_cases w with ⟨h, -⟩ | ⟨h, -⟩ | ⟨h, -⟩ | ⟨h, -⟩ | ⟨-, -, -, -, hd⟩
    · exact absurd h henc
    · exact absurd h hdec
    · exact absurd h hget
    · exact absurd h hset
    · exact ⟨_, hd⟩

/-- Settles O8: the numbers of the words in no row are those of the illegal form. -/
theorem illegalWordsAreTheReservedOnes : Obligations.IllegalWordsAreTheReservedOnes := by
  intro w
  rw [decode_illegal_iff, IllegalForm]
  omega

/-- Settles O12: each word evaluated. -/
theorem specWordsDecode : Obligations.SpecWordsDecode := by
  unfold Obligations.SpecWordsDecode
  decide

end Sys2Proof
end

section
/-! PROOFS. The assembler (30_encoding rule R89): the word of each line, and the numbers it reads. -/

namespace Sys2Proof

/-! ### Lines -/

/-- A line whose well-formedness is P, and whose number is then that of the word w, assembles to w exactly under P. -/
theorem assemble_eq_ite {l : AsmLine} {w : Word} {P : Prop} [Decidable P] (hwf : l.wellFormed = true ↔ P)
    (hn : P → l.number = w.toNat) : l.assemble = if P then some w else none := by
  unfold AsmLine.assemble
  by_cases hP : P
  · rw [if_pos (hwf.2 hP), if_pos hP, hn hP, BitVec.ofNat_toNat, BitVec.setWidth_eq]
  · rw [if_neg (mt hwf.1 hP), if_neg hP]

/-- An operand the assembler takes is a byte. -/
theorem toNat_ofNat_operand {n : Nat} (h : n ≤ 255) : (BitVec.ofNat 8 n).toNat = n :=
  Nat.mod_eq_of_lt (by omega)

/-- Settles O9: each line's number is that of the encoder's word once its operands are bytes. -/
theorem assemblerGivesTheCommandWords : Obligations.AssemblerGivesTheCommandWords := by
  refine ⟨fun v => ?_, fun b => ?_, by decide, fun h m s => ?_, fun w => ?_⟩
  · refine assemble_eq_ite (by simp [AsmLine.wellFormed, asmOperand]) fun hv => ?_
    rw [encode_enc_toNat, toNat_ofNat_operand hv, AsmLine.number]
  · refine assemble_eq_ite (by simp [AsmLine.wellFormed, asmOperand]) fun hb => ?_
    rw [encode_dec_toNat, toNat_ofNat_operand hb, AsmLine.number]
  · refine assemble_eq_ite (by simp [AsmLine.wellFormed, asmOperand, and_assoc]) fun ⟨hh, hm, hs⟩ => ?_
    rw [encode_settime_toNat, toNat_ofNat_operand hh, toNat_ofNat_operand hm, toNat_ofNat_operand hs, AsmLine.number]
  · have hw : (AsmLine.word w.toNat).wellFormed = true := decide_eq_true w.isLt
    exact (assemble_eq_ite (iff_true_intro hw) fun _ => rfl).trans (if_pos trivial)

/-! ### Numbers -/

/-- Further digits are read on from the number so far. -/
theorem digitsFrom_append (base acc : Nat) (xs ys : List Char) :
    digitsFrom base acc (xs ++ ys) = (digitsFrom base acc xs).bind (digitsFrom base · ys) := by
  induction xs generalizing acc with
  | nil => rfl
  | cons c cs ih =>
    simp only [List.cons_append, digitsFrom]
    cases digitValue c with
    | none => rfl
    | some d => by_cases hd : d < base <;> simp [hd, ih]

/-- A digit adds its value below the number so far. -/
theorem digitsFrom_singleton {base acc d : Nat} {c : Char} (hc : digitValue c = some d) (hd : d < base) :
    digitsFrom base acc [c] = some (acc * base + d) := by
  simp [digitsFrom, hc, hd]

/-- The digits of a number in a base, each written by f, read as the number. -/
theorem digitsFrom_toDigits {base : Nat} {f : Char → Char} (hb : 1 < base)
    (hf : ∀ d < base, digitValue (f (Nat.digitChar d)) = some d) (n : Nat) :
    digitsFrom base 0 ((Nat.toDigits base n).map f) = some n := by
  induction n using Nat.strongRecOn with
  | ind n ih =>
    by_cases hn : n < base
    · rw [Nat.toDigits_of_lt_base hn, List.map_singleton, digitsFrom_singleton (hf n hn) hn, Nat.zero_mul, Nat.zero_add]
    · have hlt : n % base < base := Nat.mod_lt n (by omega)
      have hq : n / base < n := Nat.div_lt_self (by omega) hb
      rw [Nat.toDigits_of_base_le hb (by omega), List.map_append, digitsFrom_append, ih _ hq, List.map_singleton,
        Option.bind_some, digitsFrom_singleton (hf _ hlt) hlt, Nat.div_add_mod']

theorem numberIn_toDigits {base : Nat} {f : Char → Char} (hb : 1 < base)
    (hf : ∀ d < base, digitValue (f (Nat.digitChar d)) = some d) (n : Nat) :
    numberIn base ((Nat.toDigits base n).map f) = some n := by
  rw [numberIn, if_neg (by simp [Nat.toDigits_ne_nil]), digitsFrom_toDigits hb hf]

/-- A decimal number is read as one: `x` is no decimal digit, so it does not start with `0x`. -/
theorem readNumber_of_numberIn_ten {cs : List Char} {n : Nat} (h : numberIn 10 cs = some n) :
    readNumber cs = some n := by
  unfold readNumber
  split
  · have hnone (ds : List Char) : numberIn 10 ('0' :: 'x' :: ds) = none := rfl
    rw [hnone] at h
    cases h
  · exact h

/-- Settles O11: every digit has its value, in either case of the letters. -/
theorem numbersReadAsWritten : Obligations.NumbersReadAsWritten := by
  intro n
  refine ⟨readNumber_of_numberIn_ten ?_, numberIn_toDigits (by decide) (by decide) n, ?_⟩
  · simpa using numberIn_toDigits (f := id) (by decide : 1 < 10) (by decide) n
  · simpa [readNumber] using numberIn_toDigits (f := id) (by decide : 1 < 16) (by decide) n

/-- Settles O10: each line read and assembled. -/
theorem programTextAssembles : Obligations.ProgramTextAssembles := by
  unfold Obligations.ProgramTextAssembles
  decide

end Sys2Proof
end

section
/-! PROOFS. The acceptance of an illegal word (30_encoding rule R86) and of a SETTIME (41_transport rule R140). -/

namespace Sys2Proof.Machine

/-- Settles O14: such a word decodes to ILLEGAL, and the step that takes it writes STATUS alone. -/
theorem illegalWordChangesOnlyStatus : Obligations.IllegalWordChangesOnlyStatus := by
  intro s w rest hi he hw
  obtain ⟨why, hd⟩ := (illegalWordsAreTheReservedOnes w).2 hw
  have hi' : (s.setEvents rest).seq = .idle := hi
  rw [step_command hi he, acceptWord, hd]
  exact whenIdle_idle hi'

/-- The value of `{b2, b1, b0}` (R11). -/
theorem mask3_eq_ofNat (b2 b1 b0 : Bool) :
    mask3 b2 b1 b0 = BitVec.ofNat 3 ((if b2 then 4 else 0) + (if b1 then 2 else 0) + (if b0 then 1 else 0)) := by
  revert b2 b1 b0
  decide

/-- Settles O31: an idle CORE accepts a SETTIME by its DETAIL mask, which is 0 exactly for a time of day. -/
theorem settimeChecksThenLatches : Obligations.SettimeChecksThenLatches := by
  intro h m sec s hi
  refine ⟨decode_encode_settime h m sec, fun ht => ?_, fun ht => ?_⟩
  · have hd : detailTime h m sec = 0#3 := (detailTime_eq_zero h m sec).2 ht
    rw [exec, execSettime, whenIdle_idle hi, if_neg (not_not.2 hd)]
    rfl
  · have hd : detailTime h m sec ≠ 0#3 := mt (detailTime_eq_zero h m sec).1 ht
    have hv : detailTime h m sec = BitVec.ofNat 3 ((if 23 < h.toNat then 4 else 0) + (if 59 < m.toNat then 2 else 0) +
        (if 59 < sec.toNat then 1 else 0)) := by
      simp [detailTime, mask3_eq_ofNat, hoursOut, minutesOut, secondsOut, Config.maxH, Config.maxM, Config.maxS]
    rw [exec, execSettime, whenIdle_idle hi, if_pos hd, hv]
    rfl

end Sys2Proof.Machine
end

section
/-! PROOFS. The BCD Codec (40_codec rules R100 to R110): the laws of enc8 and dec8, and the answers of ENC and DEC when CORE
is idle. -/

namespace Sys2Proof.Machine

variable {s : State}

/-! ### The laws of enc8 and dec8 -/

/-- A well-formed byte encodes a number of two decimal digits (R101, R102). -/
theorem dec8_toNat_le {b : Byte} (h : bcdOk b = true) : (dec8 b).toNat ≤ 99 := by
  obtain ⟨hhi, hlo⟩ := (bcdOk_iff b).1 h
  rw [dec8_toNat]
  omega

/-- Encoding undoes decoding on the well-formed bytes (R106). -/
theorem enc8_dec8 {b : Byte} (h : bcdOk b = true) : enc8 (dec8 b) = b := by
  obtain ⟨hhi, hlo⟩ := (bcdOk_iff b).1 h
  apply BitVec.eq_of_toNat_eq
  rw [enc8_toNat (dec8_toNat_le h), dec8_toNat]
  simp only [hi, lo] at hhi hlo ⊢
  omega

/-- Bit 7 of a byte says that it is at least 128. -/
theorem getLsbD_seven_iff (b : Byte) : b.getLsbD 7 = true ↔ 128 ≤ b.toNat := by
  rw [← BitVec.msb_eq_getLsbD_last, BitVec.msb_eq_decide]
  simp

/-- Bits 7:6 of a byte are 0 below 64. -/
theorem extractLsb'_six_two_of_lt {b : Byte} (h : b.toNat < 64) : b.extractLsb' 6 2 = 0b00#2 := by
  apply BitVec.eq_of_toNat_eq
  rw [BitVec.extractLsb'_toNat, Nat.shiftRight_eq_div_pow, Nat.div_eq_of_lt h]
  rfl

/-- Settles O3: the ranges and bits are arithmetic on `enc8_toNat` and `dec8_toNat`, and enc8 is injective because dec8
undoes it. -/
theorem codecFunctionsObeyTheirLaws : Obligations.CodecFunctionsObeyTheirLaws := by
  refine ⟨fun v hv => ⟨dec8_enc8 hv, bcdOk_enc8 hv, ?_, ?_, fun h39 => extractLsb'_six_two_of_lt ?_⟩,
    fun b => ⟨dec8_toNat b, ?_, fun h => ⟨enc8_dec8 h, dec8_toNat_le h⟩⟩, fun v w hv hw he => ?_⟩
  · rw [enc8_toNat hv]
    omega
  · rw [getLsbD_seven_iff, enc8_toNat hv]
    omega
  · rw [enc8_toNat hv]
    omega
  · have hhi := hi_le b
    have hlo := lo_le b
    rw [dec8_toNat]
    omega
  · rw [← dec8_enc8 hv, he, dec8_enc8 hw]

/-! ### ENC and DEC of an idle CORE -/

/-- ENC of a number of two digits completes with its encoding (R103). -/
theorem exec_enc_of_le {v : Byte} (hi : s.seq = .idle) (hv : v.toNat ≤ 99) :
    exec (.enc v) s = .next (complete .ok 0#3 (s.setRes (enc8 v))) := by
  rw [exec, execEnc, whenIdle_idle hi, if_neg (Nat.not_lt.2 hv)]

/-- ENC above 99 raises INVALID_ARGUMENT (R104). -/
theorem exec_enc_of_gt {v : Byte} (hi : s.seq = .idle) (hv : 99 < v.toNat) :
    exec (.enc v) s = .next (raiseCondition .invalidArgument detailOperand s) := by
  rw [exec, execEnc, whenIdle_idle hi, if_pos hv]

/-- DEC of a well-formed byte completes with the number it encodes (R107). -/
theorem exec_dec_of_bcdOk {b : Byte} (hi : s.seq = .idle) (hb : bcdOk b = true) :
    exec (.dec b) s = .next (complete .ok 0#3 (s.setRes (dec8 b))) := by
  rw [exec, execDec, whenIdle_idle hi, if_neg (not_not.2 ((detailNibbles_eq_zero b).2 hb))]

/-- DEC of a byte that is not BCD raises MALFORMED_REGISTER_DATA with the mask of its nibbles (R108). -/
theorem exec_dec_of_not_bcdOk {b : Byte} (hi : s.seq = .idle) (hb : ¬ bcdOk b = true) :
    exec (.dec b) s = .next (raiseCondition .malformedRegisterData (detailNibbles b) s) := by
  rw [exec, execDec, whenIdle_idle hi, if_pos (mt (detailNibbles_eq_zero b).1 hb)]

/-- Settles O1: the word is ENC's encoding, and the operand is at most 99 or above. -/
theorem encEncodesOrRejects : Obligations.EncEncodesOrRejects := fun v _ hi =>
  ⟨decode_encode_enc v, exec_enc_of_le hi, exec_enc_of_gt hi⟩

/-- The mask of a DEC as a number (R107). -/
theorem detailNibbles_eq_ofNat (b : Byte) : detailNibbles b =
    BitVec.ofNat 3 ((if 9 < b.toNat / 16 then 2 else 0) + (if 9 < b.toNat % 16 then 1 else 0)) := by
  simp [detailNibbles, mask3_eq_ofNat, hi, lo]

/-- Settles O2: the word is DEC's encoding, and the byte is well-formed BCD or its mask says which nibble is not. -/
theorem decDecodesOrRejects : Obligations.DecDecodesOrRejects := by
  intro b s hi
  refine ⟨decode_encode_dec b, fun hb => exec_dec_of_bcdOk hi ((bcdOk_iff b).2 hb), fun hb => ?_⟩
  rw [exec_dec_of_not_bcdOk hi (mt (bcdOk_iff b).1 hb), detailNibbles_eq_ofNat]
  rfl

/-- Settles O4: ENC leaves CORE idle with a well-formed RES, which DEC decodes to v. -/
theorem encThenDecRestoresTheValue : Obligations.EncThenDecRestoresTheValue := fun _ _ hi hv =>
  ⟨_, _, exec_enc_of_le hi hv, exec_dec_of_bcdOk rfl (bcdOk_enc8 hv), dec8_enc8 hv, rfl, rfl, rfl⟩

end Sys2Proof.Machine
end

section
/-! PROOFS. One step of a sequence on CORE's turn (41_transport rules R121 to R125, R141 to R146), and CORE's turn while
the collaborator does not answer (70_reset_and_hazards rule R202). -/

namespace Sys2Proof.Machine

variable {s : State} {es : List Event}

/-- On CORE's turn with a collaborator that answers, the step is that of the sequencer state. -/
theorem step_running (turn : CoreTurn s es) (hr : s.env.stalled = false) : step s = sequencerMove (s.setEvents es) := by
  rw [step_of_coreTurn turn, sequencerStep_running (by simpa using hr)]

/-- RD_FIN makes no call, so its step does not wait for the collaborator (R126). -/
theorem sequencerStep_rdFin (hq : s.seq = .rdFin) : sequencerStep s = stepRdFin s := by
  simp [sequencerStep, sequencerMove, hq, SeqState.makesCall]

/-- Every other step of CORE waits while the collaborator does not answer, or has nothing to do. -/
theorem sequencerStep_held (hr : s.env.stalled = true) (hq : s.seq ≠ .rdFin) : sequencerStep s = .next s := by
  by_cases hi : s.seq = .idle
  · exact sequencerStep_idle hi
  · refine sequencerStep_stalled hr ?_
    cases hs : s.seq with
    | idle => exact absurd hs hi
    | rdFin => exact absurd hs hq
    | _ => rfl

/-- Settles O47: outside RD_FIN CORE is held, and RD_FIN is not. -/
theorem unansweredCallHoldsCore : Obligations.UnansweredCallHoldsCore := by
  intro s es turn hr
  rw [step_of_coreTurn turn]
  exact ⟨sequencerStep_held (s := s.setEvents es) hr, sequencerStep_rdFin (s := s.setEvents es)⟩

/-! ### The pointer write -/

/-- The step that begins a sequence opens the transaction (R121, R141). -/
theorem opened_eq (s : State) (es : List Event) (q : SeqState) :
    (busBegin Config.devAddr (s.setEvents es)).setSeq q =
      { s with events := es, seq := q, calls := .begin 0x68#7 :: s.calls,
               rtc := { s.rtc with writeOpen := true, firstByte := true } } := rfl

/-- The first byte of the transaction sets the pointer (R122, R142; R52 (a)). -/
theorem pointed_eq (es : List Event) (q : SeqState) (hf : s.rtc.firstByte = true) :
    (busSend Config.ptrStart (s.setEvents es)).setSeq q =
      { s with events := es, seq := q, calls := .send 0x00#8 :: s.calls,
               rtc := { s.rtc with ptr := 0x00#8, firstByte := false } } := by
  rw [busSend_eq, State.setEvents_rtc, rtcAfterSend_first hf]
  rfl

/-- Settles O20: BusBegin, then the byte that sets the pointer. -/
theorem readSequenceOpensWithThePointerWrite : Obligations.ReadSequenceOpensWithThePointerWrite := by
  intro s es turn hr
  rw [step_running turn hr, sequencerMove, State.setEvents_seq]
  refine ⟨fun hq => ?_, fun hq hf => ?_⟩ <;> rw [hq]
  · exact congrArg Host.Outcome.next (opened_eq s es .rdPtr)
  · exact congrArg Host.Outcome.next (pointed_eq es .rdEnd hf)

/-- Settles O32: as in the read sequence. -/
theorem writeSequenceOpensWithThePointer : Obligations.WriteSequenceOpensWithThePointer := by
  intro s es turn hr
  rw [step_running turn hr, sequencerMove, State.setEvents_seq]
  refine ⟨fun hq => ?_, fun hq hf => ?_⟩ <;> rw [hq]
  · exact congrArg Host.Outcome.next (opened_eq s es .wrPtr)
  · exact congrArg Host.Outcome.next (pointed_eq es .wrS hf)

/-! ### The fields sent -/

/-- A step that sends a byte and goes on to q: of CORE's registers it changes SEQ alone. -/
theorem sends_next (s : State) (es : List Event) (b : Byte) (q : SeqState) :
    ∃ t : State, Host.Outcome.next ((busSend b (s.setEvents es)).setSeq q) = (.next t : Outcome) ∧ t.events = es ∧
      t.calls = .send b :: s.calls ∧ t.coreView = { s.coreView with seq := q } :=
  ⟨_, rfl, by simp, by simp, by simp⟩

/-- Settles O33: each of the three states sends its field. -/
theorem writeSequenceSendsTheFields : Obligations.WriteSequenceSendsTheFields := by
  intro s es turn hr
  rw [step_running turn hr, sequencerMove, State.setEvents_seq]
  refine ⟨fun hq => ?_, fun hq => ?_, fun hq => ?_⟩ <;> rw [hq]
  · exact sends_next s es s.opdS .wrM
  · exact sends_next s es s.opdM .wrH
  · exact sends_next s es s.opdH .wrEnd

/-! ### The acknowledgments -/

@[simp] theorem answerAck_setEvents (s : State) (es : List Event) : answerAck (s.setEvents es) = answerAck s := rfl

/-- Settles O21: RD_END goes on to RD_REQ or ends the command, as BusEnd answers. -/
theorem unacknowledgedPointerWriteEndsGettime : Obligations.UnacknowledgedPointerWriteEndsGettime := by
  intro s es turn hr hq
  have hstep : step s = stepRdEnd (s.setEvents es) := by
    rw [step_running turn hr, sequencerMove, State.setEvents_seq, hq]
  rw [stepRdEnd, answerAck_setEvents] at hstep
  cases ha : answerAck s with
  | true =>
    rw [if_pos ha] at hstep
    exact ⟨_, hstep, by simp, by simp [ha], rfl, by simp [ha, rtcAfterEnd], nofun⟩
  | false =>
    rw [if_neg (by simp [ha])] at hstep
    exact ⟨_, hstep, by simp, by simp [ha], rfl, nofun, by simp [Condition.code, detailNack]⟩

@[simp] theorem loseWrite_coreView (s : State) : (loseWrite s).coreView = s.coreView := by
  rw [loseWrite_eq]
  simp

@[simp] theorem loseWrite_events (s : State) : (loseWrite s).events = s.events := by
  rw [loseWrite_eq]
  simp

@[simp] theorem loseWrite_calls (s : State) : (loseWrite s).calls = s.calls := by
  rw [loseWrite_eq]
  simp

/-- Settles O35: WR_END ends the command as BusEnd answers, and a lost write loses only registers 0 to 2. -/
theorem writeEndsByItsAcknowledgment : Obligations.WriteEndsByItsAcknowledgment := by
  intro s es turn hr hq
  have hstep : step s = stepWrEnd (s.setEvents es) := by
    rw [step_running turn hr, sequencerMove, State.setEvents_seq, hq]
  rw [stepWrEnd, answerAck_setEvents] at hstep
  cases ha : answerAck s with
  | true =>
    rw [if_pos ha] at hstep
    exact ⟨_, hstep, by simp, by simp [ha], by simp, by simp [ha, rtcAfterEnd], fun a _ => rfl⟩
  | false =>
    rw [if_neg (by simp [ha])] at hstep
    exact ⟨_, hstep, by simp, by simp [ha], by simp [Condition.code, detailNack], nofun,
      fun a h3 => loseWrite_read _ h3⟩

/-! ### The request and the receives -/

@[simp] theorem answerCount_setEvents (k : Nat) (s : State) (es : List Event) :
    answerCount k (s.setEvents es) = answerCount k s := rfl

@[simp] theorem answerByte_setEvents (s : State) (es : List Event) : answerByte (s.setEvents es) = answerByte s := rfl

@[simp] theorem State.startReceive_coreView (s : State) (n : BitVec 3) :
    (s.startReceive n).coreView = { s.coreView with rxn := n, rxi := 0#3 } := rfl

/-- CORE's registers after the byte b is received: RXI as a number says where it goes (R125). -/
def CoreView.received (v : CoreView) (b : Byte) : CoreView :=
  { v with
    rxi := v.rxi + 1#3
    rxb0 := if v.rxi.toNat = 0 then b else v.rxb0
    rxb1 := if v.rxi.toNat = 1 then b else v.rxb1
    rxb2 := if v.rxi.toNat = 2 then b else v.rxb2 }

@[simp] theorem State.receiveInto_coreView (s : State) (b : Byte) :
    (s.receiveInto b).coreView = s.coreView.received b := by
  have hx (i : Nat) (hi : i < 8) : s.rxi = BitVec.ofNat 3 i ↔ s.rxi.toNat = i := by bv_omega
  simp [State.coreView, CoreView.received, ← hx]

/-- The two calls of a read reach the RTC, the environment's answers and the trace (R58, R59). -/
theorem busRequest_coreView (a : DeviceAddr) (k : Nat) (s : State) : (busRequest a k s).coreView = s.coreView := by simp

theorem busReceive_coreView (s : State) : (busReceive s).coreView = s.coreView := by simp

/-- Settles O22: RD_REQ faults above 7, and otherwise RXN takes the count. -/
theorem readRequestTakesTheCount : Obligations.ReadRequestTakesTheCount := by
  intro s es turn hr hq
  have hstep : step s = stepRdReq (s.setEvents es) := by
    rw [step_running turn hr, sequencerMove, State.setEvents_seq, hq]
  rw [hstep, stepRdReq, answerCount_setEvents]
  refine ⟨fun hn => if_pos hn, fun hn => ⟨_, if_neg (not_lt.2 hn), by simp, ?_, rfl, ?_, ofNat_count_toNat hn⟩⟩
  · simp [Config.devAddr, Config.readCount]
  · rw [State.setSeq_coreView, State.startReceive_coreView, busRequest_coreView, State.setEvents_coreView]
    rfl

/-- The byte received is the last exactly when RXI then counts RXN bytes (R125). -/
theorem rxi_succ_eq_iff {i n : BitVec 3} (h : i.toNat < n.toNat) : i + 1#3 = n ↔ i.toNat + 1 = n.toNat := by
  rw [← rxi_succ_toNat h, BitVec.toNat_inj]

/-- Settles O23: RD_RECV receives one byte, puts it in its place and counts it. -/
theorem receiveKeepsTheFirstThreeBytes : Obligations.ReceiveKeepsTheFirstThreeBytes := by
  intro s es turn hr hq hlt
  have hstep : step s = stepRdRecv (s.setEvents es) := by
    rw [step_running turn hr, sequencerMove, State.setEvents_seq, hq]
  refine ⟨_, hstep, by simp, by simp, by simp, by simpa using rxi_succ_toNat hlt, ?_⟩
  rw [State.setSeq_coreView, State.receiveInto_coreView, busReceive_coreView, State.setEvents_coreView]
  simp only [← rxi_succ_eq_iff hlt]
  rfl

end Sys2Proof.Machine
end

section
/-! PROOFS. What acceptance makes of GETTIME and SETTIME (41_transport rules R120, R129, R140, R147), and that GETTIME in
12-hour mode is the only refusal of any step (60_exceptions rule R171). -/

namespace Sys2Proof.Machine

variable {s : State}

/-! ### GETTIME -/

/-- GETTIME in 24-hour mode begins the read sequence (R120). -/
theorem exec_gettime_h24 (hi : s.seq = .idle) (hh : s.hourMode = .h24) :
    exec .gettime s = .next (beginSequence .rdBegin s) := by
  rw [exec, execGettime, whenIdle_idle hi, hh]

/-- GETTIME in 12-hour mode is refused (R129). -/
theorem exec_gettime_h12 (hi : s.seq = .idle) (hh : s.hourMode = .h12) : exec .gettime s = .refused .hourModeH12 := by
  rw [exec, execGettime, whenIdle_idle hi, hh]

/-- Settles O18: a sequence begins by writing STATUS and SEQ. -/
theorem gettimeBeginsTheReadSequence : Obligations.GettimeBeginsTheReadSequence := fun _ => exec_gettime_h24

/-! ### The only refusal -/

/-- Of the commands only GETTIME is refused, and only in 12-hour mode (R129). -/
theorem exec_refused {i : Instr} {r : Refusal} (hi : s.seq = .idle) (h : exec i s = .refused r) :
    i = .gettime ∧ s.hourMode = .h12 ∧ r = .hourModeH12 := by
  cases i with
  | enc v =>
    simp only [exec, execEnc, whenIdle_idle hi] at h
    split at h <;> cases h
  | dec b =>
    simp only [exec, execDec, whenIdle_idle hi] at h
    split at h <;> cases h
  | gettime =>
    cases hh : s.hourMode with
    | h24 => rw [exec_gettime_h24 hi hh] at h; cases h
    | h12 => rw [exec_gettime_h12 hi hh] at h; cases h; exact ⟨rfl, rfl, rfl⟩
  | settime a b c =>
    simp only [exec, execSettime, whenIdle_idle hi] at h
    split at h <;> cases h

/-- A refused word is GETTIME's, in 12-hour mode. -/
theorem acceptWord_refused {w : Word} {r : Refusal} (hi : s.seq = .idle) (h : acceptWord w s = .refused r) :
    w = 0x30000000#32 ∧ s.hourMode = .h12 ∧ r = .hourModeH12 := by
  rcases acceptWord_cases w s with ⟨i, hw, e⟩ | ⟨why, -, e⟩ <;> rw [e] at h
  · obtain ⟨rfl, hh, hr⟩ := exec_refused hi h
    exact ⟨(encodeUndoesDecode w _ hw).symm, hh, hr⟩
  · rw [acceptIllegal, whenIdle_idle hi] at h
    cases h

/-- CORE's own step is refused only in RD_FIN in 12-hour mode (log entry 12). -/
theorem sequencerStep_refused {r : Refusal} (h : sequencerStep s = .refused r) :
    s.seq = .rdFin ∧ s.hourMode = .h12 := by
  rcases sequencerStep_cases s with e | e <;> rw [e] at h
  · cases h
  · cases hq : s.seq <;> simp only [sequencerMove, hq] at h
    case rdEnd =>
      unfold stepRdEnd at h
      split at h <;> cases h
    case rdReq =>
      unfold stepRdReq at h
      split at h <;> cases h
    case rdFin =>
      unfold stepRdFin at h
      split at h
      · cases h
      · split at h <;> cases h
        exact ⟨rfl, ‹_›⟩
    case wrEnd =>
      unfold stepWrEnd at h
      split at h <;> cases h
    all_goals cases h

/-- No move from outside is refused. -/
theorem OutsideMove.not_refused {rest : List Event} {e : Event} {o : Outcome} {r : Refusal}
    (h : OutsideMove s rest e o) : o ≠ .refused r := by
  cases h with
  | readTod =>
    unfold Machine.readTod
    split <;> nofun
  | readRes =>
    unfold Machine.readRes
    split <;> nofun
  | _ => nofun

/-- Settles O19: the only other refusal would be in RD_FIN, which a read in 12-hour mode never reaches. -/
theorem onlyGettimeIn12HourModeIsRefused : Obligations.OnlyGettimeIn12HourModeIsRefused := by
  refine ⟨fun _ => exec_gettime_h12, fun s r inv h => ?_⟩
  rcases step_cases s with ⟨es, turn, e⟩ | ⟨w, rest, hi, he, e⟩ | ⟨e, rest, he, ho⟩
  · obtain ⟨hq, hh⟩ := sequencerStep_refused (e ▸ h)
    have hread : s.seq.isRead = true := congrArg SeqState.isRead hq
    exact absurd ((inv.hourMode hread).symm.trans hh) nofun
  · have hi' : (s.setEvents rest).seq = .idle := hi
    obtain ⟨rfl, hh, hr⟩ := acceptWord_refused hi' (e ▸ h)
    exact ⟨hr, hh, hi, rest, he⟩
  · exact absurd h ho.not_refused

/-! ### SETTIME -/

/-- A bit that a small byte does not reach is 0. -/
theorem getLsbD_eq_false_of_lt {b : Byte} {i : Nat} (h : b.toNat < 2 ^ i) : b.getLsbD i = false :=
  Nat.testBit_lt_two_pow h

/-- The encoded seconds stay below the clock-halt bit, the encoded hours below the 12-hour bit (R147 (a), (b)). -/
theorem encodedTime_bits {h m sec : Byte} (ht : IsTimeOfDay h m sec) :
    (enc8 sec).getLsbD 7 = false ∧ (enc8 h).getLsbD 6 = false := by
  obtain ⟨hhour, -, hsec⟩ := ht
  simp only [Config.maxH, Config.maxS] at hhour hsec
  have vs := enc8_toNat (v := sec) (by omega)
  have vh := enc8_toNat (v := h) (by omega)
  exact ⟨getLsbD_eq_false_of_lt (by omega), getLsbD_eq_false_of_lt (by omega)⟩

/-- Settles O39: OPD holds the encoded fields of a time of day from acceptance to the end of the write sequence. -/
theorem writeClearsClockHaltAndSelects24Hour : Obligations.WriteClearsClockHaltAndSelects24Hour := by
  refine ⟨fun h m sec s t hi hexec hq => ?_, fun s inv hw => ?_⟩
  · obtain ⟨-, hgood, hbad⟩ := settimeChecksThenLatches h m sec s hi
    by_cases ht : IsTimeOfDay h m sec
    · rw [hgood ht] at hexec
      cases hexec
      exact encodedTime_bits ht
    · rw [hbad ht] at hexec
      cases hexec
      cases hq
  · obtain ⟨h, m, sec, ht, hH, -, hS⟩ := inv.opd hw
    rw [hH, hS]
    exact encodedTime_bits ht

end Sys2Proof.Machine
end

section
/-! PROOFS. RD_FIN, the end of a read (41_transport rules R126 to R131): what it makes of the bytes received. -/

namespace Sys2Proof.Machine

variable {s : State}

/-! ### What RD_FIN answers -/

/-- The state in which RD_FIN completes the command in 24-hour mode (R126, R127, R130). -/
def State.finishRead (s : State) : State :=
  if s.rxn.toNat < Config.readCount then raiseCondition .transportFailure detailShort s else validateRead s

/-- In 24-hour mode RD_FIN always completes the command. -/
theorem stepRdFin_h24 (hh : s.hourMode = .h24) : stepRdFin s = .next s.finishRead := by
  rw [stepRdFin, hh]
  exact (apply_ite Host.Outcome.next _ _ _).symm

/-- Whenever RD_FIN completes the command, it is in that state. -/
theorem stepRdFin_next {t : State} (h : stepRdFin s = .next t) : t = s.finishRead := by
  cases hh : s.hourMode with
  | h24 => exact Host.Outcome.next.inj (h.symm.trans (stepRdFin_h24 hh))
  | h12 =>
    rw [stepRdFin, hh] at h
    split at h <;> cases h
    exact (if_pos ‹_›).symm

theorem finishRead_short (hn : s.rxn.toNat < 7) :
    s.finishRead = raiseCondition .transportFailure detailShort s := if_pos hn

theorem finishRead_full (hn : s.rxn.toNat = 7) : s.finishRead = validateRead s :=
  if_neg (by simp [hn, Config.readCount])

theorem validateRead_bad (hd : readDetail s ≠ 0#3) :
    validateRead s = raiseCondition .malformedRegisterData (readDetail s) s := if_pos hd

theorem validateRead_ok (hd : readDetail s = 0#3) :
    validateRead s = complete .ok 0#3 (s.setTod (dec8 (rawHours s)) (dec8 (rawMinutes s)) (dec8 (rawSeconds s))) :=
  if_neg (not_not.2 hd)

/-- The value of `{b2, b1, b0}` as a sum (R11). -/
theorem mask3_eq_ofNat_toNat (b2 b1 b0 : Bool) :
    mask3 b2 b1 b0 = BitVec.ofNat 3 (4 * b2.toNat + 2 * b1.toNat + b0.toNat) := by
  revert b2 b1 b0
  decide

theorem mask3_eq_zero_iff_or (b2 b1 b0 : Bool) : mask3 b2 b1 b0 = 0#3 ↔ (b0 || b1 || b2) = false := by
  revert b2 b1 b0
  decide

/-- Settles O24: a short read, a malformed one, or OK. -/
theorem readCompletesByValidation : Obligations.ReadCompletesByValidation := by
  intro s es turn hq hh
  have hstep : step s = .next (s.setEvents es).finishRead := by
    rw [step_of_coreTurn turn, sequencerStep_rdFin (by simpa using hq), stepRdFin_h24 (by simpa using hh)]
  rw [hstep]
  refine ⟨fun hn => congrArg Host.Outcome.next (finishRead_short hn), ?_⟩
  rintro hn rs es' em eh rfl hsec hmin hhour
  have hd : readDetail (s.setEvents es) = mask3 eh em es' := by
    rw [hsec, hmin, hhour]
    rfl
  rw [finishRead_full (s := s.setEvents es) hn]
  cases h0 : es' || em || eh with
  | false =>
    rw [validateRead_ok (hd.trans ((mask3_eq_zero_iff_or _ _ _).2 h0))]
    rfl
  | true =>
    rw [validateRead_bad (by rw [hd, ne_eq, mask3_eq_zero_iff_or, h0]; decide), hd, mask3_eq_ofNat_toNat]
    rfl

/-! ### The clock-halt bit -/

/-- RD_FIN sees RXB0 without its clock-halt bit (R127). -/
theorem maskClockHalt_or (r : Byte) : maskClockHalt (r ||| 0x80#8) = maskClockHalt r := by
  have h0 : 0x7F#8 &&& 0x80#8 = 0#8 := by decide
  rw [maskClockHalt, BitVec.and_comm, BitVec.and_or_distrib_left, h0, BitVec.or_zero, BitVec.and_comm, maskClockHalt]

/-- Two values of RXB0 that differ only in the clock-halt bit give the same outcome. -/
theorem finishRead_rxb0 (s : State) {r r' : Byte} (h : maskClockHalt r = maskClockHalt r') :
    { { s with rxb0 := r }.finishRead with rxb0 := r } = { { s with rxb0 := r' }.finishRead with rxb0 := r } := by
  have hraw : rawSeconds { s with rxb0 := r } = rawSeconds { s with rxb0 := r' } := h
  have hd : readDetail { s with rxb0 := r } = readDetail { s with rxb0 := r' } := by
    rw [readDetail, hraw]
    rfl
  unfold State.finishRead validateRead
  rw [hd, hraw]
  dsimp only
  split_ifs <;> rfl

/-- Settles O25: the two bytes are the same without the clock-halt bit. -/
theorem clockHaltBitDoesNotMatter : Obligations.ClockHaltBitDoesNotMatter := by
  intro s r hq hh
  have answers (b : Byte) : sequencerStep { s with rxb0 := b } = .next { s with rxb0 := b }.finishRead :=
    (sequencerStep_rdFin (s := { s with rxb0 := b }) hq).trans (stepRdFin_h24 hh)
  exact ⟨_, _, answers r, answers (r ||| 0x80#8), finishRead_rxb0 s (maskClockHalt_or r).symm⟩

/-! ### The old registers -/

/-- Settles O26: the code, DETAIL and TOD delivered are functions of the count and the bytes. -/
theorem readResultIgnoresOldRegisters : Obligations.ReadResultIgnoresOldRegisters := by
  intro s s' t t' hq hq' hn h0 h1 h2 h h'
  rw [sequencerStep_rdFin hq] at h
  rw [sequencerStep_rdFin hq'] at h'
  rw [stepRdFin_next h, stepRdFin_next h']
  have hS : rawSeconds s = rawSeconds s' := congrArg maskClockHalt h0
  have hM : rawMinutes s = rawMinutes s' := h1
  have hH : rawHours s = rawHours s' := h2
  have hd : readDetail s = readDetail s' := by rw [readDetail, readDetail, hS, hM, hH]
  unfold State.finishRead validateRead
  rw [hn, hd, hS, hM, hH]
  split_ifs
  · exact ⟨rfl, rfl, rfl, nofun⟩
  · exact ⟨rfl, rfl, rfl, nofun⟩
  · exact ⟨rfl, rfl, rfl, fun _ => ⟨rfl, rfl, rfl, rfl⟩⟩

end Sys2Proof.Machine
end

section
/-! PROOFS. Whole runs of GETTIME and SETTIME whose environment's answers are listed (41_transport rules R120 to R146;
70_reset_and_hazards rule R202): the calls, the bytes received, and what the command leaves. -/

namespace Sys2Proof.Machine

variable {s : State}

/-! ### TOD and RES -/

/-- TOD and RES with their valid bits (R23 to R26). -/
structure Results where
  todS : Byte
  todM : Byte
  todH : Byte
  todv : Bool
  res : Byte
  resv : Bool

/-- TOD and RES among CORE's registers. -/
def CoreView.results (v : CoreView) : Results :=
  { todS := v.todS, todM := v.todM, todH := v.todH, todv := v.todv, res := v.res, resv := v.resv }

/-- The results of two states are equal exactly when their registers are. -/
theorem results_eq_iff {s t : State} : t.coreView.results = s.coreView.results ↔
    t.todS = s.todS ∧ t.todM = s.todM ∧ t.todH = s.todH ∧ t.todv = s.todv ∧ t.res = s.res ∧ t.resv = s.resv := by
  simp [CoreView.results, State.coreView]

/-! ### The receives -/

/-- The receives keep TOD and RES, and the RTC's registers (R125). -/
theorem receives_results (n : Nat) (s : State) :
    (receiveOne^[n] s).coreView.results = s.coreView.results := by
  induction n with
  | zero => rfl
  | succ n ih =>
    rw [Function.iterate_succ_apply', ← ih]
    simp [receiveOne, CoreView.received, CoreView.results]

theorem receives_mem (n : Nat) (s : State) : (receiveOne^[n] s).rtc.mem = s.rtc.mem := by
  induction n with
  | zero => rfl
  | succ n ih =>
    rw [Function.iterate_succ_apply', ← ih]
    simp [receiveOne]

@[simp] theorem answeredBytes_length (n : Nat) (s : State) : (answeredBytes n s).length = n := by simp [answeredBytes]

/-- The byte of the first receive, then those of the others. -/
theorem answeredBytes_cons (n : Nat) (s : State) :
    answeredBytes (n + 1) s = answerByte s :: answeredBytes n (receiveOne s) := by
  simp [answeredBytes, List.range_succ_eq_map, Function.comp_def]

/-- Each receive logs its byte (R125). -/
theorem receives_calls (n : Nat) (s : State) :
    (receiveOne^[n] s).calls = ((answeredBytes n s).map BusCall.receive).reverse ++ s.calls := by
  induction n generalizing s with
  | zero => rfl
  | succ n ih =>
    rw [Function.iterate_succ_apply, ih, answeredBytes_cons]
    simp [receiveOne]

/-- Listed bytes are answered in order (R61). -/
theorem answeredBytes_listed {bs rest : List Byte} (h : s.env.bytes = bs ++ rest) :
    answeredBytes bs.length s = bs := by
  induction bs generalizing s with
  | nil => rfl
  | cons b bs ih =>
    have hb : answerByte s = b := by simp [answerByte, h]
    rw [List.length_cons, answeredBytes_cons, hb, ih (by simp [h])]

/-! ### A read from acceptance to the last byte -/

/-- CORE in RD_END after a GETTIME was accepted and the pointer byte sent (R120 to R122). -/
def readOpened (s : State) : State := (beginSequence .rdBegin (s.setEvents [])).pointerWritten.setSeq .rdEnd

theorem readOpened_undisturbed (hr : s.env.stalled = false) : Undisturbed (readOpened s) := ⟨hr, nofun⟩

/-- Acceptance and the two steps of the pointer write. -/
theorem run_readOpened (hi : s.seq = .idle) (hh : s.hourMode = .h24) (hr : s.env.stalled = false)
    (he : s.events = [.command 0x30000000#32]) : Host.Core.run Sys2Proof.core 3 s = .next (readOpened s) := by
  have hu : Undisturbed (beginSequence .rdBegin (s.setEvents [])) := ⟨hr, nofun⟩
  exact run_trans (run_one (step_gettime hi hh he)) (run_readOpens hu rfl)

@[simp] theorem readOpened_calls (s : State) : (readOpened s).calls = pointerWrite ++ s.calls := by simp [readOpened]

@[simp] theorem readOpened_coreView (s : State) :
    (readOpened s).coreView = { s.coreView with seq := .rdEnd, code := .pending, detail := 0#3 } := by
  simp [readOpened]

@[simp] theorem readRequested_results (s : State) : (readRequested s).coreView.results = s.coreView.results := by
  simp [readRequested, readAddressed, CoreView.results]

@[simp] theorem readRequested_mem (s : State) : (readRequested s).rtc.mem = s.rtc.mem := by
  simp [readRequested, rtcAfterRequest]

/-- The calls of an acknowledged pointer write and of the request (R121 to R124). -/
theorem readRequested_calls (ha : answerAck s = true) : (readRequested s).calls =
    .request Config.devAddr 7 (answerCount 7 (readAddressed s)) :: .finish true :: (pointerWrite ++ s.calls) := by
  have hack : answerAck (readOpened s) = true := ha
  have hcalls : (readAddressed s).calls = (busEnd (readOpened s)).calls := rfl
  simp [readRequested, hcalls, hack]

/-- CORE in RD_FIN after n bytes were requested and received. -/
def readReceived (n : Nat) (s : State) : State := (receiveOne^[n] (readRequested s)).setSeq .rdFin

/-- With a count n answered, acceptance, the pointer write, the request and the receives are 5 + n steps. -/
theorem run_readReceived_of_le {n : Nat} (hi : s.seq = .idle) (hh : s.hourMode = .h24) (hr : s.env.stalled = false)
    (he : s.events = [.command 0x30000000#32]) (ha : answerAck s = true) (hn : answerCount 7 (readAddressed s) = n)
    (hn7 : n ≤ 7) : Host.Core.run Sys2Proof.core (5 + n) s = .next (readReceived n s) := by
  cases n with
  | zero =>
    have hu : Undisturbed (readAddressed s) := ⟨by simpa [afterAck] using hr, by simp⟩
    have hreq : step (readAddressed s) = .next (readReceived 0 s) := by
      rw [step_rdReq hu rfl (hn.trans_le hn7), if_pos hn]
      rfl
    exact run_trans (b := 1) (run_readAddressed hi hh hr he ha) (run_one hreq)
  | succ n => exact run_readReceived hi hh hr he ha hn hn7

/-- What the read leaves as it was when the GETTIME was accepted. -/
theorem readReceived_keeps (n : Nat) (s : State) :
    (readReceived n s).hourMode = s.hourMode ∧ (readReceived n s).events = [] ∧
    (readReceived n s).env.stalled = s.env.stalled ∧ (readReceived n s).rtc.mem = s.rtc.mem ∧
    (readReceived n s).coreView.results = s.coreView.results := by
  obtain ⟨hhour, hevents, hstalled, -⟩ := receives_keep n (readRequested s)
  exact ⟨hhour.trans (readRequested_hourMode s), hevents.trans (readRequested_events s),
    hstalled.trans (by simp [afterCount, afterAck]), (receives_mem n _).trans (readRequested_mem s),
    (receives_results n _).trans (readRequested_results s)⟩

/-- RXN and the pointer hold the count. -/
theorem readReceived_count {n : Nat} (ha : answerAck s = true) (hn : answerCount 7 (readAddressed s) = n)
    (hn7 : n ≤ 7) : (readReceived n s).rxn.toNat = n ∧ (readReceived n s).rtc.ptr.toNat = n := by
  obtain ⟨-, -, -, -, hrxn, hptr⟩ := receives_keep n (readRequested s)
  obtain ⟨-, hp⟩ := readRequested_rtc ha hn hn7
  have hc : (readRequested s).rxn.toNat = n := by rw [readRequested_rxn, hn, ofNat_count_toNat hn7]
  exact ⟨(congrArg BitVec.toNat hrxn).trans hc, (congrArg BitVec.toNat hptr).trans hp⟩

/-- The trace of the read, in order (R121 to R125). -/
theorem readReceived_trace {n : Nat} (ha : answerAck s = true) (hn : answerCount 7 (readAddressed s) = n) :
    (readReceived n s).observe.trace = s.observe.trace ++
      ([.begin 0x68#7, .send 0x00#8, .finish true, .request 0x68#7 7 n] ++
        (answeredBytes n (readRequested s)).map BusCall.receive) := by
  have hcalls : (readReceived n s).calls = (receiveOne^[n] (readRequested s)).calls := rfl
  simp [State.observe, hcalls, receives_calls, readRequested_calls ha, hn, pointerWrite, Config.devAddr,
    Config.ptrStart]

/-- RD_FIN completes the command and makes no call. -/
theorem finishRead_keeps (s : State) : s.finishRead.seq = .idle ∧ s.finishRead.events = s.events ∧
    s.finishRead.observe.trace = s.observe.trace ∧ s.finishRead.rtc = s.rtc ∧ s.finishRead.res = s.res ∧
    s.finishRead.resv = s.resv := by
  unfold State.finishRead validateRead
  split_ifs <;> simp [State.observe]

/-- With a count n answered, the command ends in 6 + n steps. -/
theorem run_read {n : Nat} (hi : s.seq = .idle) (hh : s.hourMode = .h24) (hr : s.env.stalled = false)
    (he : s.events = [.command 0x30000000#32]) (ha : answerAck s = true) (hn : answerCount 7 (readAddressed s) = n)
    (hn7 : n ≤ 7) : Host.Core.run Sys2Proof.core (6 + n) s = .next (readReceived n s).finishRead := by
  obtain ⟨rhour, revents, rstalled, -⟩ := readReceived_keeps n s
  have hu : Undisturbed (readReceived n s) := ⟨rstalled.trans hr, by simp [revents]⟩
  have hfin : step (readReceived n s) = .next (readReceived n s).finishRead :=
    (hu.step nofun).trans (stepRdFin_h24 (rhour.trans hh))
  rw [show 6 + n = 5 + n + 1 by omega]
  exact run_trans (run_readReceived_of_le hi hh hr he ha hn hn7) (run_one hfin)

/-! ### A short read -/

/-- Settles O28: the read completes by RXN below 7. -/
theorem shortReadTakesSixStepsAndItsBytes : Obligations.ShortReadTakesSixStepsAndItsBytes := by
  intro s n acks counts hi hh hr he hlt hacks hcounts
  have ha : answerAck s = true := by simp [answerAck, hacks]
  have hn : answerCount 7 (readAddressed s) = n := by simp [answerCount, afterAck, hcounts]
  have hn7 : n ≤ 7 := by omega
  have hrun := run_read hi hh hr he ha hn hn7
  have htrace := readReceived_trace ha hn
  obtain ⟨-, revents, -, -, rresults⟩ := readReceived_keeps n s
  obtain ⟨rrxn, -⟩ := readReceived_count ha hn hn7
  obtain ⟨htodS, htodM, htodH, htodv, hres, hresv⟩ := results_eq_iff.1 rresults
  rw [finishRead_short (by omega)] at hrun
  exact ⟨_, answeredBytes n (readRequested s), hrun, ended_of_idle rfl revents, answeredBytes_length _ _, htrace, rfl,
    rfl, htodv, htodH, htodM, htodS, hres, hresv⟩

/-! ### A full read -/

/-- A full read is well formed exactly when its fields are BCD and a time of day (R127, R130). -/
theorem readDetail_eq_zero_iff (s : State) : readDetail s = 0#3 ↔
    IsTimeOfDay (dec8 (rawHours s)) (dec8 (rawMinutes s)) (dec8 (rawSeconds s)) ∧
      bcdOk (rawHours s) = true ∧ bcdOk (rawMinutes s) = true ∧ bcdOk (rawSeconds s) = true := by
  rw [readDetail, detailFields, mask3_eq_zero]
  simp [hoursOut, minutesOut, secondsOut, IsTimeOfDay]
  tauto

/-- Settles O27: the listed bytes are the ones received, and the first three decide between OK and a malformed read. -/
theorem fullReadTakesThirteenSteps : Obligations.FullReadTakesThirteenSteps := by
  intro s b0 b1 b2 b3 b4 b5 b6 acks counts bytes hi hh hr he hacks hcounts hbytes
  have ha : answerAck s = true := by simp [answerAck, hacks]
  have hn : answerCount 7 (readAddressed s) = 7 := by simp [answerCount, afterAck, hcounts]
  have hrun := run_read hi hh hr he ha hn le_rfl
  have hlisted : answeredBytes 7 (readRequested s) = [b0, b1, b2, b3, b4, b5, b6] :=
    answeredBytes_listed (bs := [b0, b1, b2, b3, b4, b5, b6]) (rest := bytes)
      (by simpa [afterCount, afterAck] using hbytes)
  have htrace := readReceived_trace ha hn
  obtain ⟨-, k0, k1, k2⟩ := receives_keepFirstThree (n := 7) (readRequested_rxi s) le_rfl
  rw [hlisted] at htrace k0 k1 k2
  obtain ⟨-, revents, -, rmem, rresults⟩ := readReceived_keeps 7 s
  obtain ⟨rrxn, rptr⟩ := readReceived_count ha hn le_rfl
  obtain ⟨htodS, htodM, htodH, htodv, hres, hresv⟩ := results_eq_iff.1 rresults
  obtain ⟨fseq, fevents, ftrace, frtc, fres, fresv⟩ := finishRead_keeps (readReceived 7 s)
  have hS : rawSeconds (readReceived 7 s) = b0 &&& 0x7F#8 := congrArg maskClockHalt (k0 b0 rfl)
  have hM : rawMinutes (readReceived 7 s) = b1 := k1 b1 rfl
  have hH : rawHours (readReceived 7 s) = b2 := k2 b2 rfl
  have hzero := readDetail_eq_zero_iff (readReceived 7 s)
  rw [hS, hM, hH] at hzero
  refine ⟨_, hrun, ended_of_idle fseq (fevents.trans revents), ftrace.trans htrace, ?_, ?_, fres.trans hres,
    fresv.trans hresv, fun hok => ?_, fun hbad => ?_⟩
  · rw [frtc]
    exact BitVec.eq_of_toNat_eq rptr
  · rw [frtc, rmem]
  · rw [finishRead_full rrxn, validateRead_ok (hzero.2 hok), hS, hM, hH]
    simp
  · have hd := mt hzero.1 hbad
    rw [finishRead_full rrxn, validateRead_bad hd]
    exact ⟨rfl, hd, htodv, htodH, htodM, htodS⟩

/-! ### Without an acknowledgment -/

/-- Settles O29: acceptance, the pointer write, and RD_END without an acknowledgment. -/
theorem unacknowledgedReadTakesFourSteps : Obligations.UnacknowledgedReadTakesFourSteps := by
  intro s acks hi hh hr he hacks
  have ha : answerAck (readOpened s) = false := by simp [answerAck, readOpened, hacks]
  have hend : step (readOpened s) = .next (raiseCondition .transportFailure detailNack (busEnd (readOpened s))) := by
    rw [(readOpened_undisturbed hr).step nofun]
    exact if_neg (by simp [ha])
  have hq : s.coreView.seq = .idle := hi
  refine ⟨_, run_trans (run_readOpened hi hh hr he) (run_one hend), ended_of_idle rfl rfl, ?_, ?_⟩
  · simp [State.observe, ha, pointerWrite, Config.ptrStart, Config.devAddr]
  · simp [hq, Condition.code, detailNack]

/-- Settles O37: acceptance and five calls, and WR_END without an acknowledgment. -/
theorem unacknowledgedWriteTakesSevenSteps : Obligations.UnacknowledgedWriteTakesSevenSteps := by
  intro s h m sec acks hi hr ht he hacks
  have ha : answerAck (settimeSent h m sec [] s) = false := by simp [answerAck, hacks]
  have hu : Undisturbed (settimeSent h m sec [] s) := ⟨by simpa using hr, by simp⟩
  have hend : step (settimeSent h m sec [] s) =
      .next (raiseCondition .transportFailure detailNack (loseWrite (busEnd (settimeSent h m sec [] s)))) := by
    rw [hu.step nofun]
    exact if_neg (by simp [ha])
  have hq : s.coreView.seq = .idle := hi
  refine ⟨_, run_trans (run_settimeSent hi hr ht he nofun) (run_one hend), ended_of_idle rfl (by simp), ?_, ?_⟩
  · simp [State.observe, ha, pointerWrite, Config.ptrStart, Config.devAddr]
  · simp [hq, Condition.code, detailNack]

end Sys2Proof.Machine
end

section
/-! PROOFS. The faults of a step (60_exceptions rule R170), and what an error condition leaves of the results (R161). -/

namespace Sys2Proof.Machine

variable {s : State} {f : Fault}

/-! ### Which move faults -/

/-- No command's meaning ends in a fault: it completes, is rejected, begins a sequence, or is refused. -/
theorem exec_ne_fault (i : Instr) : exec i s ≠ .fault f := by
  by_cases hi : s.seq = .idle
  · cases i with
    | enc v =>
      rcases Nat.lt_or_ge 99 v.toNat with hv | hv
      · rw [exec_enc_of_gt hi hv]; nofun
      · rw [exec_enc_of_le hi hv]; nofun
    | dec b =>
      by_cases hb : bcdOk b = true
      · rw [exec_dec_of_bcdOk hi hb]; nofun
      · rw [exec_dec_of_not_bcdOk hi hb]; nofun
    | gettime =>
      cases hh : s.hourMode with
      | h24 => rw [exec_gettime_h24 hi hh]; nofun
      | h12 => rw [exec_gettime_h12 hi hh]; nofun
    | settime h m sec =>
      obtain ⟨-, hgood, hbad⟩ := settimeChecksThenLatches h m sec s hi
      by_cases ht : IsTimeOfDay h m sec
      · rw [hgood ht]; nofun
      · rw [hbad ht]; nofun
  · rw [exec_busy hi]; nofun

/-- Taking a word that waits is no fault, whatever the word (R86). -/
theorem acceptWord_ne_fault {w : Word} (hi : s.seq = .idle) : acceptWord w s ≠ .fault f := by
  rcases acceptWord_cases w s with ⟨i, -, e⟩ | ⟨why, -, e⟩ <;> rw [e]
  · exact exec_ne_fault i
  · rw [acceptIllegal, whenIdle_idle hi]; nofun

/-- The step of a sequencer state faults only in RD_REQ, on a count above 7 (R124). -/
theorem sequencerMove_fault (h : sequencerMove s = .fault f) :
    s.seq = .rdReq ∧ 7 < answerCount 7 s ∧ f = .collaboratorCount := by
  cases hq : s.seq <;> simp only [sequencerMove, hq] at h
  case rdReq =>
    unfold stepRdReq at h
    split at h <;> cases h
    exact ⟨rfl, ‹_›, rfl⟩
  case rdEnd =>
    unfold stepRdEnd at h
    split at h <;> cases h
  case rdFin =>
    unfold stepRdFin at h
    split at h
    · cases h
    · split at h <;> cases h
  case wrEnd =>
    unfold stepWrEnd at h
    split at h <;> cases h
  all_goals cases h

/-- CORE's own step faults only so, and only when the collaborator has answered (I6). -/
theorem sequencerStep_fault (h : sequencerStep s = .fault f) :
    s.seq = .rdReq ∧ s.env.stalled = false ∧ 7 < answerCount 7 s ∧ f = .collaboratorCount := by
  rcases sequencerStep_cases s with e | e
  · exact nomatch e.symm.trans h
  · obtain ⟨hq, hn, hf⟩ := sequencerMove_fault (e.symm.trans h)
    refine ⟨hq, Bool.eq_false_iff.2 fun hs => ?_, hn, hf⟩
    exact nomatch (sequencerStep_held hs (by simp [hq])).symm.trans h

/-- Of the moves from outside, only the read of a port that is not yet written faults (R24, R26). -/
theorem OutsideMove.fault {rest : List Event} {e : Event} {o : Outcome} (h : OutsideMove s rest e o)
    (ho : o = .fault f) :
    (f = .unwrittenTod ∧ s.todv = false ∧ e = .readTod) ∨ (f = .unwrittenRes ∧ s.resv = false ∧ e = .readRes) := by
  cases h with
  | readTod =>
    unfold Machine.readTod at ho
    split at ho <;> cases ho
    exact .inl ⟨rfl, Bool.eq_false_iff.2 ‹_›, rfl⟩
  | readRes =>
    unfold Machine.readRes at ho
    split at ho <;> cases ho
    exact .inr ⟨rfl, Bool.eq_false_iff.2 ‹_›, rfl⟩
  | _ => cases ho

/-- Settles O42: each move of `step_cases` faults only as the table says, and each row of the table is a clause of O22 or
of O41. -/
theorem faultsAreThoseOfTheTable : Obligations.FaultsAreThoseOfTheTable := by
  intro s f
  constructor
  · intro h
    rcases step_cases s with ⟨es, turn, e⟩ | ⟨w, rest, hi, -, e⟩ | ⟨e, rest, he, ho⟩
    · obtain ⟨hq, hr, hn, hf⟩ := sequencerStep_fault (e.symm.trans h)
      exact .inl ⟨hf, hq, hr, ⟨es, turn⟩, hn⟩
    · exact absurd (e.symm.trans h) (acceptWord_ne_fault hi)
    · rcases ho.fault h with ⟨hf, hv, rfl⟩ | ⟨hf, hv, rfl⟩
      · exact .inr (.inl ⟨hf, hv, rest, he⟩)
      · exact .inr (.inr ⟨hf, hv, rest, he⟩)
  · rintro (⟨rfl, hq, hr, ⟨es, turn⟩, hn⟩ | ⟨rfl, hv, rest, he⟩ | ⟨rfl, hv, rest, he⟩)
    · exact (readRequestTakesTheCount s es turn hr hq).1 hn
    · obtain ⟨-, -, htod, -, -⟩ := portReadsGiveTheRegisters s rest
      exact htod he hv
    · obtain ⟨-, -, -, -, hres⟩ := portReadsGiveTheRegisters s rest
      exact hres he hv

/-! ### An error changes no result -/

/-- A reset step leaves CODE NONE (R190). -/
theorem code_of_step_reset {t : State} {rest : List Event} (he : s.events = .reset :: rest) (h : step s = .next t) :
    t.code = .none := by
  rw [step_reset he] at h
  cases h
  rfl

/-- Settles O51: by O49 and O50 a step that changes a result leaves OK or is a reset step, which leaves NONE. -/
theorem errorsKeepTheResults : Obligations.ErrorsKeepTheResults := by
  intro s t h hcode
  have hok : t.code ≠ .ok := fun hc => by simp [hc] at hcode
  have hreset : ¬ ∃ rest, s.events = .reset :: rest := fun ⟨rest, he⟩ => by
    simp [code_of_step_reset he h] at hcode
  rcases onlyGettimeAndResetWriteTod s t h with ⟨hs, hm, hh, hv⟩ | ⟨-, -, hc, -⟩ | ⟨-, hr⟩
  · rcases onlyCodecAndResetWriteRes s t h with ⟨hres, hresv⟩ | ⟨-, hc, -⟩ | ⟨-, hr⟩
    · exact ⟨hs, hm, hh, hv, hres, hresv⟩
    · exact absurd hc hok
    · exact absurd hr hreset
  · exact absurd hc hok
  · exact absurd hr hreset

end Sys2Proof.Machine
end

section
/-! PROOFS. The state after reset, HOUR_MODE while CORE runs, and a word that waits for a busy CORE
(70_reset_and_hazards rules R192, R193, R195). -/

namespace Sys2Proof.Machine

variable {s t : State}

/-- Settles O43: reset leaves CORE idle with CODE NONE, DETAIL 0 and nothing written, so STATUS reads zero. -/
theorem resetStateIsAsSpecified : Obligations.ResetStateIsAsSpecified :=
  ⟨rfl, rfl, rfl, rfl, rfl, statusPort_cleared rfl rfl rfl rfl rfl⟩

/-! ### A word waits while CORE is busy -/

/-- While CORE is busy and a word is first among the events, the turn is CORE's and every event remains (R195). -/
theorem coreTurn_of_busy {w : Word} {rest : List Event} (hb : s.seq ≠ .idle) (he : s.events = .command w :: rest) :
    CoreTurn s s.events :=
  .inr (.inr ⟨hb, rfl, .inl ⟨w, rest, he⟩⟩)

/-- Settles O15: the turn is CORE's, and CORE's own step keeps the events. -/
theorem busyCoreHoldsTheWord : Obligations.BusyCoreHoldsTheWord := by
  intro s w rest hb he
  have hstep : step s = sequencerStep s := by
    rw [step_of_coreTurn (coreTurn_of_busy hb he), State.setEvents_self]
  refine ⟨hstep, fun t h => ?_⟩
  obtain ⟨-, hevents, -⟩ := (CoreMove.of_sequencerStep (hstep.symm.trans h)).keeps
  exact hevents.trans he

/-! ### HOUR_MODE -/

theorem Acceptance.hourMode {w : Word} (a : Acceptance w s t) : t.hourMode = s.hourMode := by cases a <;> simp

/-- A reset step leaves the configuration alone (R193). -/
theorem resetCore_hourMode (s : State) : (resetCore s).hourMode = s.hourMode := by
  obtain ⟨d, r, v, h, -⟩ := resetCore_eq s
  rw [h]
  simp

/-- Settles O52: CORE's own step, the acceptance of a word and a reset each keep HOUR_MODE, and the other moves from
outside replace no register of CORE. -/
theorem hourModeNeverChanges : Obligations.HourModeNeverChanges := by
  intro s t h
  cases StepMove.of_step h with
  | core es turn hseq =>
    obtain ⟨hmode, -⟩ := (CoreMove.of_sequencerStep hseq).keeps
    exact hmode
  | accept w rest hi he ha => exact ha.hourMode
  | reset rest he => exact resetCore_hourMode _
  | read | rtcSet | hostBus | answers => rfl

end Sys2Proof.Machine
end

section
/-! PROOFS. The canonical form of the RTC's register space along every step (20_memory section 1; log entries 5, 6). -/

namespace Sys2Proof.Machine

/-- Settles O55: a step changes the register space only by writing one register inside it (a byte CORE sends, a change of a
register from outside) or by freeing its first ones (a write not acknowledged, a reset in mid-sequence), and each of these
keeps the form. -/
theorem stepKeepsMemoryCanonical : Obligations.StepKeepsMemoryCanonical := by
  intro s t inv h
  exact (StepMove.of_step h).memoryCanonical inv

end Sys2Proof.Machine
end
